-- ==== Sys2Proof/Word.lean ====
section
/-! DEFINITION. The words of the part: the byte of a packet and the 32-bit line value. -/

namespace Sys2Proof

/-- A byte of a packet (R171). -/
abbrev Byte := BitVec 8

/-- A line counter value, a position or another count modulo 2^32 (R47). -/
abbrev Line := BitVec 32

/-- An event flag word (R180). -/
abbrev FlagWord := BitVec 16

end Sys2Proof
end

