-- ==== Sys2Proof/Syntax.lean ====
section
/-! DEFINITION. The commands of the block, one constructor per row of spec/opcode_table.json, with the
names of links, bars and lanes they carry. -/

namespace Sys2Proof

/-- The three packet links (R171). -/
inductive LinkId where
  | image | motion | service
  deriving DecidableEq, Repr

/-- The four bars (R65). -/
inductive BarId where
  | b0 | b1 | b2 | b3
  deriving DecidableEq, Repr

/-- The eight head lanes (R65). -/
inductive LaneId where
  | hl0 | hl1 | hl2 | hl3 | hl4 | hl5 | hl6 | hl7
  deriving DecidableEq, Repr

/-- The status a head gives in a load reply (R70). -/
inductive LoadStatus where
  | ok | loadCheck | driveFault
  deriving DecidableEq, Repr

/-- The cause a head gives in a nozzle report (R70). -/
inductive ReportCause where
  | openNozzle | short
  deriving DecidableEq, Repr

/-- One nozzle report of a load reply (R70). -/
structure NozzleReport where
  nozzle : Nat
  cause : ReportCause
  deriving DecidableEq, Repr

/-- The nozzle count an identify answer gives, and which identify of its lane it answers, counted from 1 (R70;
the count is the model's own, log 16). -/
structure NozzleCount where
  identify : Nat
  nozzles : Nat
  deriving DecidableEq, Repr

/-- The commands. A request carries the link it arrives on, its tag and its payload bytes, as they
stand in its packet (R171). -/
inductive Instr where
  /-- PGOPEN (R26). -/
  | pgopen (link : LinkId) (tag : Byte) (payload : List Byte)
  /-- ROWPUT (R8). -/
  | rowput (link : LinkId) (tag : Byte) (payload : List Byte)
  /-- ROWSKIP (R13). -/
  | rowskip (link : LinkId) (tag : Byte) (payload : List Byte)
  /-- PGCANCEL (R36). -/
  | pgcancel (link : LinkId) (tag : Byte) (payload : List Byte)
  /-- PGRETIRE (R39). -/
  | pgretire (link : LinkId) (tag : Byte) (payload : List Byte)
  /-- RINGMARK (R14). -/
  | ringmark (link : LinkId) (tag : Byte) (payload : List Byte)
  /-- LNSETUP (R58). -/
  | lnsetup (link : LinkId) (tag : Byte) (payload : List Byte)
  /-- LNZERO (R60). -/
  | lnzero (link : LinkId) (tag : Byte) (payload : List Byte)
  /-- TRIG (R56). -/
  | trig (link : LinkId) (tag : Byte) (payload : List Byte)
  /-- SUPPR (R41). -/
  | suppr (link : LinkId) (tag : Byte) (payload : List Byte)
  /-- PGABORT (R37). -/
  | pgabort (link : LinkId) (tag : Byte) (payload : List Byte)
  /-- GEOSET (R66). -/
  | geoset (link : LinkId) (tag : Byte) (payload : List Byte)
  /-- BARSET (R68). -/
  | barset (link : LinkId) (tag : Byte) (payload : List Byte)
  /-- HDON (R73). -/
  | hdon (link : LinkId) (tag : Byte) (payload : List Byte)
  /-- HDOFF (R75). -/
  | hdoff (link : LinkId) (tag : Byte) (payload : List Byte)
  /-- HDPARK (R76). -/
  | hdpark (link : LinkId) (tag : Byte) (payload : List Byte)
  /-- HDREIN (R152). -/
  | hdrein (link : LinkId) (tag : Byte) (payload : List Byte)
  /-- LANESCAN (R72). -/
  | lanescan (link : LinkId) (tag : Byte) (payload : List Byte)
  /-- DRVSET (R141). -/
  | drvset (link : LinkId) (tag : Byte) (payload : List Byte)
  /-- NZEDIT (R98). -/
  | nzedit (link : LinkId) (tag : Byte) (payload : List Byte)
  /-- NZCOMMIT (R102). -/
  | nzcommit (link : LinkId) (tag : Byte) (payload : List Byte)
  /-- NZDROP (R100). -/
  | nzdrop (link : LinkId) (tag : Byte) (payload : List Byte)
  /-- NZREAD (R101). -/
  | nzread (link : LinkId) (tag : Byte) (payload : List Byte)
  /-- PTNEW (R158). -/
  | ptnew (link : LinkId) (tag : Byte) (payload : List Byte)
  /-- PTROW (R159). -/
  | ptrow (link : LinkId) (tag : Byte) (payload : List Byte)
  /-- PTDEL (R160). -/
  | ptdel (link : LinkId) (tag : Byte) (payload : List Byte)
  /-- PTLIST (R169). -/
  | ptlist (link : LinkId) (tag : Byte) (payload : List Byte)
  /-- CHKPRINT (R167). -/
  | chkprint (link : LinkId) (tag : Byte) (payload : List Byte)
  /-- PRRESET (R178). -/
  | prreset (link : LinkId) (tag : Byte) (payload : List Byte)
  /-- STATRD (R186). -/
  | statrd (link : LinkId) (tag : Byte) (payload : List Byte)
  /-- PGSTAT (R40). -/
  | pgstat (link : LinkId) (tag : Byte) (payload : List Byte)
  /-- EVRD (R183). -/
  | evrd (link : LinkId) (tag : Byte) (payload : List Byte)
  /-- EVCLR (R184). -/
  | evclr (link : LinkId) (tag : Byte) (payload : List Byte)
  /-- EVMASK (R185). -/
  | evmask (link : LinkId) (tag : Byte) (payload : List Byte)
  /-- WDRAW (R176). -/
  | wdraw (link : LinkId) (tag : Byte) (payload : List Byte)
  /-- BAD_CHECK (R173). -/
  | badCheck (link : LinkId)
  /-- UNKNOWN (R177). -/
  | unknown (link : LinkId) (tag number : Byte) (payload : List Byte)
  /-- PACKET_LENGTH_DISCARD (R172). -/
  | packetLengthDiscard (link : LinkId)
  /-- PACKET_INACTIVITY_TIMEOUT (R172). -/
  | packetInactivityTimeout (link : LinkId)
  /-- ENCODER_EDGE (R50). -/
  | encoderEdge (a b : Bool)
  /-- LINE_TICK (R52). -/
  | lineTick
  /-- AUTOMATIC_TRIGGER (R57). -/
  | automaticTrigger
  /-- PDET_RISING_EDGE (R55). -/
  | pdetRisingEdge
  /-- POWER_ON (R179). -/
  | powerOn (a b : Bool)
  /-- WARM_TIMER_EXPIRY (R74). -/
  | warmTimerExpiry (lane : LaneId)
  /-- SETTLE_TIMER_EXPIRY (R77). -/
  | settleTimerExpiry (lane : LaneId)
  /-- RETRY_TIMER_EXPIRY (R149). -/
  | retryTimerExpiry (lane : LaneId)
  /-- SLEW_TIMER_EXPIRY (R142). -/
  | slewTimerExpiry (lane : LaneId)
  /-- IDENTIFY_ANSWER (R70, R71). -/
  | identifyAnswer (lane : LaneId) (count : NozzleCount) (temperature : Byte)
  /-- IDENTIFY_TIMEOUT (R71). -/
  | identifyTimeout (lane : LaneId)
  /-- LOAD_REPLY (R84). -/
  | loadReply (lane : LaneId) (number : Byte) (status : LoadStatus) (temperature : Byte)
      (reports : List NozzleReport)
  /-- LOAD_REPLY_TIMEOUT (R84). -/
  | loadReplyTimeout (lane : LaneId)
  /-- FIRE_COMPLETE (R85). -/
  | fireComplete (lane : LaneId) (number : Byte)
  /-- LOAD_SEND (R70). -/
  | loadSend (lane : LaneId)
  /-- ROW_STORE_GRANT (R83). -/
  | rowStoreGrant
  /-- ROW_STORE_READ_DONE (R82). -/
  | rowStoreReadDone
  /-- ROWPUT_WRITE_COMPLETE (R11). -/
  | rowputWriteComplete
  /-- PACKET_BYTE (R172). -/
  | packetByte (link : LinkId) (byte : Byte)
  deriving DecidableEq, Repr

end Sys2Proof
end

