-- ==== Sys2Proof/Decode.lean ====
section
/-! DEFINITION. The table of this block gives no row any bits (spec/opcode_table.json: every row's
fields are empty), so no word spells a command (log 22). -/

namespace Sys2Proof

/-- The command a word spells by the table's bits: none, for no row has any. -/
def decodeTableWord (_nbits _w : Nat) : Option Instr := none

end Sys2Proof
end

