-- ==== Sys2Proof/Config.lean ====
section
/-! DEFINITION. The capacities the spec fixes, and the free values: constants without a body, for
what the spec leaves open (assumption log 2 and 11). -/

namespace Sys2Proof.Config

/-- Slots of the Row Ring (R1). -/
abbrev ringSlots : Nat := 2048

/-- Records of the Page Queue (R23). -/
abbrev queueCapacity : Nat := 8

/-- Nozzles of a head, and levels of a pattern row (R65, R157). -/
abbrev nozzles : Nat := 1024

/-- Edits of the Pending List (R97). -/
abbrev pendingCapacity : Nat := 256

/-- Entries of the pattern directory (R157). -/
abbrev directoryCapacity : Nat := 24

/-- Memory rows of the Pattern Library (R157). -/
abbrev patternRows : Nat := 1024

/-- Records of the check list (R166). -/
abbrev checkCapacity : Nat := 4

/-- Greatest payload of a packet (R171). -/
abbrev maxPayload : Nat := 1040

/-- FREE VALUE, DESIGN CHOICE of its form (log 2): which of the bars that still have work at a line
tick or a trigger goes next. The spec leaves the order of the bars open (R15, R38, R52, R106). -/
opaque pick : Nat → Nat

/-- FREE VALUE, DESIGN CHOICE of its form (log 11): reply bytes for which the spec states no value
(R180: the transition row without a transition, the next pattern row of an IDLE play, an absent
line record). -/
opaque freeWord : Nat → BitVec 32

end Sys2Proof.Config
end

