-- ==== Sys2Proof/Machine/State.lean ====
section
/-! DEFINITION. The state of the A860, block by block as 00_scope.md lists them, and the state after
power-on. -/

namespace Sys2Proof.Machine

/-! ### One value per bar, per lane, per link -/

/-- One value for each bar. -/
structure PerBar (α : Type) where
  (b0 b1 b2 b3 : α)
  deriving DecidableEq, Repr

/-- One value for each head lane. -/
structure PerLane (α : Type) where
  (hl0 hl1 hl2 hl3 hl4 hl5 hl6 hl7 : α)
  deriving DecidableEq, Repr

/-- One value for each link. -/
structure PerLink (α : Type) where
  (image motion service : α)
  deriving DecidableEq, Repr

/-! ### Levels, names and drops -/

/-- A pixel or drop level, 0 to 3 (00_scope, Terms). -/
inductive Level where
  | l0 | l1 | l2 | l3
  deriving DecidableEq, Repr

/-- A pattern name, by its character codes (R157, R180). -/
abbrev Name := List Byte

/-- A keep-wet mark of a nozzle in a load (R70, R128). -/
inductive Mark where
  | plain | tickle | spit
  deriving DecidableEq, Repr

/-- What one nozzle gets in a load: its level and its mark (R117). -/
structure Drop where
  level : Level
  mark : Mark
  deriving DecidableEq, Repr

/-! ### Page Queue (02_pages_and_triggers.md) -/

/-- Page states (R25). -/
inductive PageState where
  | declared | armed | printing | done | aborted
  deriving DecidableEq, Repr

/-- Abort causes (R24). -/
inductive AbortCause where
  | cancelled | motionAbort | underrunHalt
  deriving DecidableEq, Repr

/-- A page record (R24). `progress` is present exactly for the bars of the bar set. -/
structure Page where
  id : Nat
  rowCount : Nat
  progress : PerBar (Option Nat)
  gap : Option Name
  state : PageState
  trigger : Option Line
  delivered : Nat
  complete : Nat
  missedUnderrun : Nat
  missedLate : Nat
  missedOverspeed : Nat
  suppressed : Nat
  lost : Nat
  substituted : Nat
  degraded : Bool
  cause : Option AbortCause
  deriving DecidableEq, Repr

/-- The Page Queue with the Suppress flag, the ready margin and the READY output (R23, R41, R43). -/
structure Queue where
  pages : List Page
  suppress : Bool
  readyMargin : Nat
  ready : Bool
  deriving DecidableEq, Repr

/-! ### Row Ring (01_the_row_ring.md) -/

/-- The stored levels of a part, with the first column its bar had at intake (R5). -/
structure PlanePart where
  first : Nat
  levels : List Level
  deriving DecidableEq, Repr

/-- Part status (R2); a PRESENT part has its row store contents with it (log 27). -/
inductive PartStatus where
  | absent
  | present (part : PlanePart)
  | blank
  deriving DecidableEq, Repr

/-- Part status and passed flag of one bar of a row's page (R2). -/
structure RowPart where
  status : PartStatus
  passed : Bool
  deriving DecidableEq, Repr

/-- A row record (R2). `parts` is present exactly for the bars of the page's bar set. -/
structure RowRec where
  page : Nat
  row : Nat
  parts : PerBar (Option RowPart)
  retired : Bool
  writing : Option BarId
  deriving DecidableEq, Repr

/-- Who has the row store (R83). -/
inductive StoreAccess where
  | free
  | read (lane : LaneId)
  | write
  deriving DecidableEq, Repr

/-- The Row Ring, the room mark and the row store arbiter (R1, R14, R83). -/
structure Ring where
  rows : List RowRec
  roomMark : Nat
  store : StoreAccess
  deriving DecidableEq, Repr

/-! ### Position Unit (03_web_position_and_line_ticks.md) -/

/-- Trigger source setting (R54). -/
inductive TriggerSource where
  | pdet | link | auto
  deriving DecidableEq, Repr

/-- The Position Unit (R47, R48). `tickRaised` and `autoRaised` are the model's own: a line tick, an
automatic trigger, raised and not yet delivered (log 3). -/
structure Position where
  encoder : Line
  highWater : Line
  depth : Line
  accumulator : Nat
  line : Line
  pitch : Nat
  swapped : Bool
  source : TriggerSource
  holdoff : Nat
  autoPitch : Nat
  lastTrigger : Option Line
  lastRows : Nat
  taken : Nat
  early : Nat
  empty : Nat
  reverseTotal : Line
  overspeed : Nat
  encA : Bool
  encB : Bool
  tickRaised : Bool
  autoRaised : Bool
  deriving DecidableEq, Repr

/-! ### Bars (04_bars_head_lanes_and_row_delivery.md, 08_pattern_library_and_gap_prints.md) -/

/-- Underrun policy (R68, R88). -/
inductive UnderrunPolicy where
  | blank | halt
  deriving DecidableEq, Repr

/-- Handover mode (R121). -/
inductive Handover where
  | midpoint | interleave
  deriving DecidableEq, Repr

/-- Keep-wet mode (R128). -/
inductive KeepWet where
  | off | tickle | spitGap | spitAny
  deriving DecidableEq, Repr

/-- The four runtime fields of a bar (R68). -/
structure BarFields where
  policy : UnderrunPolicy
  handover : Handover
  keepWet : KeepWet
  limit : Nat
  deriving DecidableEq, Repr

/-- The view of the nozzle table a load keeps (R105). -/
inductive View where
  | table | transition
  deriving DecidableEq, Repr

/-- A bar's record of the load of a page row it has begun (R81, R134). `waiting`: the Row Ring has not
handed the row over. `added`: the tallies were added to the page at the assignment. -/
structure PageLoad where
  page : Nat
  row : Nat
  view : View
  fields : BarFields
  waiting : Bool
  lost : Nat
  substituted : Nat
  added : Bool
  deriving DecidableEq, Repr

/-- What a bar has begun to load for the next tick (R79, R81). A pattern row is the next row of the
bar's gap play. -/
inductive BarNext where
  | idle
  | page (load : PageLoad)
  | pattern
  | gap
  deriving DecidableEq, Repr

/-- Pattern kinds (R157). -/
inductive PatternKind where
  | spit | check
  deriving DecidableEq, Repr

/-- Where a gap play comes from (R161). -/
inductive PlaySource where
  | page | check
  deriving DecidableEq, Repr

/-- A PLAYING gap play (R161). -/
structure GapPlay where
  name : Name
  kind : PatternKind
  next : Nat
  source : PlaySource
  deriving DecidableEq, Repr

/-- A check slot that is not absent (R161). -/
inductive CheckSlot where
  | waiting (id : Nat)
  | playing (id : Nat) (unprinted : Nat)
  deriving DecidableEq, Repr

/-- A bar: its geometry (R65), runtime fields (R68), load (R81), dark-reported flag (R89) and gap
state (R161). -/
structure Bar where
  enabled : Bool
  offset : Nat
  asSet : BarFields
  inEffect : BarFields
  next : BarNext
  darkReported : Bool
  gapPlay : Option GapPlay
  checkSlot : Option CheckSlot
  deriving DecidableEq, Repr

/-! ### Nozzle table (05_the_nozzle_condition_table.md) -/

/-- Fail causes (R93). -/
inductive FailCause where
  | openNozzle | short | set
  deriving DecidableEq, Repr

/-- Nozzle states; the fail cause is present exactly while FAILED (R93). -/
inductive NozzleState where
  | good | weak | disabled
  | failed (cause : FailCause)
  deriving DecidableEq, Repr

/-- A nozzle entry (R93). -/
structure Nozzle where
  state : NozzleState
  sub : Option Int
  trim : Int
  acc : Nat
  idle : Nat
  deriving DecidableEq, Repr

/-- The new state an edit gives (R95). -/
inductive NewState where
  | good | weak | disabled | failed
  deriving DecidableEq, Repr

/-- The new substitute an edit gives (R95). -/
inductive NewSub where
  | clear
  | offset (by_ : Int)
  deriving DecidableEq, Repr

/-- An edit (R95). -/
structure Edit where
  lane : LaneId
  first : Nat
  count : Nat
  state : Option NewState
  sub : Option NewSub
  trim : Option Int
  excluded : List Nat
  mark : Line
  deriving DecidableEq, Repr

/-- The record of an ALIGNED transition (R104); a switched flag for each bar of the page's set. -/
structure Transition where
  page : Nat
  row : Nat
  edits : List Edit
  switched : PerBar (Option Bool)
  deriving DecidableEq, Repr

/-- The Pending List, the Transition List, the stage sequence and the superseded counter (R95, R97,
R104, R113). -/
structure NozzleLists where
  pending : List Edit
  transition : Option Transition
  stage : Line
  superseded : Nat
  deriving DecidableEq, Repr

/-! ### Head lanes (04_bars_head_lanes_and_row_delivery.md, 07_drive_levels_and_head_recovery.md) -/

/-- A lane assignment that is not UNASSIGNED (R65). -/
structure Assign where
  bar : BarId
  slot : Nat
  first : Nat
  deriving DecidableEq, Repr

/-- Where the settle timer leads (R69). -/
inductive SettleTarget where
  | off | parked
  deriving DecidableEq, Repr

/-- Head states; the settle target is present only in SETTLING (R69). -/
inductive HeadState where
  | absent | off | warming | active
  | settling (target : SettleTarget)
  | parked | recovery | failed
  deriving DecidableEq, Repr

/-- Warm times, 20 to 160 ms (R69). -/
inductive WarmTime where
  | ms20 | ms40 | ms80 | ms160
  deriving DecidableEq, Repr

/-- Slew intervals, 0.5 to 8 ms (R140). -/
inductive SlewInterval where
  | half | ms1 | ms2 | ms4 | ms8
  deriving DecidableEq, Repr

/-- Head faults (R147). -/
inductive HeadFault where
  | overtemp | driveFault | laneLoss | laneError
  deriving DecidableEq, Repr

/-- A probe in progress (R71): a plain probe, with whether the presence before it is known (R71, R92),
or the retry probe of RECOVERY (R149). -/
inductive Probe where
  | plain (presenceKnown : Bool)
  | retry
  deriving DecidableEq, Repr

/-- The exchange a lane carries (R70). -/
inductive Exchange where
  | identify
  | load (number : Byte)
  deriving DecidableEq, Repr

/-- What row a head load is for. -/
inductive LoadRow where
  | page (id row : Nat)
  | pattern
  | gap
  deriving DecidableEq, Repr

/-- Stages of a head load (R82). The read stage is `readWait` until the arbiter grants it; `rejected`
is a load whose exchange ended without a reply of status OK. -/
inductive LoadStage where
  | waitingRow | readWait | readRun | transfer | awaiting | complete | rejected
  deriving DecidableEq, Repr

/-- A load of a head (R82), with the number and drive level it was sent with (R70, R144). -/
structure HeadLoad where
  row : LoadRow
  stage : LoadStage
  number : Byte
  drive : Nat
  drops : List Drop
  deriving DecidableEq, Repr

/-- A head lane (R65, R69, R93, R140). A timer is stopped (`none`, `false`) or running with the length
it was started with. `identifies` is the model's own: how many identifies the lane has sent, which tells an
answer to the last of them from a late one (R70, R92; log 16). -/
structure Lane where
  assign : Option Assign
  head : HeadState
  probe : Option Probe
  warmTime : WarmTime
  warmTimer : Option WarmTime
  settleTimer : Option WarmTime
  park : Option Bool
  fire : Option HeadLoad
  fireOpen : Bool
  load : Option HeadLoad
  noReply : Nat
  check : Nat
  number : Byte
  exchange : Option Exchange
  identifies : Nat
  drive : Nat
  target : Nat
  step : Nat
  interval : SlewInterval
  slewTimer : Option SlewInterval
  temperature : Nat
  limit : Nat
  lastFault : Option HeadFault
  retries : Nat
  retryTimer : Bool
  nozzles : List Nozzle
  deriving DecidableEq, Repr

/-! ### Pattern Library (08_pattern_library_and_gap_prints.md) -/

/-- A directory entry (R157). -/
structure Pattern where
  name : Name
  kind : PatternKind
  rows : Nat
  start : Nat
  ready : Bool
  written : List Nat
  deriving DecidableEq, Repr

/-- Outcomes of a check at a bar (R166). -/
inductive CheckOutcome where
  | waiting | playing | whole | truncated
  deriving DecidableEq, Repr

/-- A check record's fields for one bar of its set (R166). -/
structure CheckBar where
  outcome : CheckOutcome
  line : Option Line
  unprinted : Nat
  deriving DecidableEq, Repr

/-- A check record (R166). -/
structure CheckRec where
  id : Nat
  name : Name
  bars : PerBar (Option CheckBar)
  ended : Bool
  deriving DecidableEq, Repr

/-- The Pattern Library (R157, R164, R166). Byte k of memory row m is at address 256 m + k. -/
structure Library where
  directory : List Pattern
  memory : List Host.Cell
  checks : List CheckRec
  checkCount : Nat
  truncated : Nat
  deriving DecidableEq, Repr

/-! ### Links (09_links_and_requests.md, 10_attention_and_status.md) -/

/-- The packet assembler, with the bytes it has collected after the start byte (R172). -/
inductive Assembler where
  | idle
  | receiving (bytes : List Byte)
  | checking (bytes : List Byte)
  deriving DecidableEq, Repr

/-- What a waiting request waits for (R175). -/
inductive WaitOp where
  | hdon (lane : LaneId)
  | hdpark (lane : LaneId)
  | nzcommit
  | chkprint (id : Nat) (bars : PerBar Bool)
  deriving DecidableEq, Repr

/-- A request that remains in progress (R174). -/
inductive InProgress where
  | rowput (tag : Byte) (page row : Nat) (bar : BarId) (part : PlanePart)
  | scan (tag : Byte) (running found : PerLane Bool)
  | waiting (tag : Byte) (op : WaitOp)
  deriving DecidableEq, Repr

/-- A link: assembler and counters (R172), request in progress (R174), event flags, mask and attention
output (R181, R182). -/
structure Link where
  assembler : Assembler
  discarded : Nat
  badCheck : Nat
  busy : Option InProgress
  flags : FlagWord
  mask : FlagWord
  attn : Bool
  deriving DecidableEq, Repr

/-- Status codes (00_scope, R180). -/
inductive Status where
  | ok | badCheck | badLength | unknown | notPermitted | busy | badField | wrongState | full
  | sequence | notFound | exists_ | noSpace | inUse | withdrawn | failed | aborted
  deriving DecidableEq, Repr

/-- Fire command modes (R70). -/
inductive FireMode where
  | full | keepWetOnly
  deriving DecidableEq, Repr

/-- Messages from the part to a head (R70). -/
inductive HeadMsg where
  | identify
  | load (number : Byte) (drive : Nat) (drops : List Drop)
  | fire (number : Byte) (mode : FireMode)
  deriving DecidableEq, Repr

/-- What the part sends: a reply packet on a link (R171), or a message on a lane (R70). -/
inductive Sent where
  | reply (link : LinkId) (tag : Byte) (status : Status) (payload : List Byte)
  | head (lane : LaneId) (msg : HeadMsg)
  deriving DecidableEq, Repr

/-! ### The whole part -/

/-- The state of the A860. `sent`, `fresh` and `pending` are the model's own: the record of what was
sent, oldest first (log 1), the count of free values drawn (log 2, 11), and the queue of commands that
wait to be taken, first in, first out. -/
structure State where
  position : Position
  queue : Queue
  ring : Ring
  bars : PerBar Bar
  lanes : PerLane Lane
  lists : NozzleLists
  library : Library
  links : PerLink Link
  sent : List Sent
  fresh : Nat
  pending : List Instr
  deriving DecidableEq, Repr

/-- Reasons to stop with a fault: none. The spec gives every command an effect, so no command raises a
fault and the type has no constructor. -/
inductive Fault : Type
  deriving DecidableEq, Repr

/-- Reasons to refuse a command. -/
inductive Refusal where
  /-- Raised by exec's arm of a command that has no meaning yet, with the row's mnemonic; no arm of this
  model raises it. Safe: the model stops where the hardware goes on. -/
  | notModelled (mnemonic : String)
  deriving DecidableEq, Repr

/-! ### The state after power-on -/

/-- The same value at every bar. -/
def PerBar.all (x : α) : PerBar α := ⟨x, x, x, x⟩

/-- The same value at every lane. -/
def PerLane.all (x : α) : PerLane α := ⟨x, x, x, x, x, x, x, x⟩

/-- The Position Unit after power-on (R63), with the decoder's starting pair (R48). -/
def Position.powerOn (a b : Bool) : Position where
  encoder := 0
  highWater := 0
  depth := 0
  accumulator := 0
  line := 0
  pitch := 256
  swapped := false
  source := .pdet
  holdoff := 0
  autoPitch := 0
  lastTrigger := none
  lastRows := 0
  taken := 0
  early := 0
  empty := 0
  reverseTotal := 0
  overspeed := 0
  encA := a
  encB := b
  tickRaised := false
  autoRaised := false

/-- The runtime fields after power-on (R68, R91). -/
def BarFields.powerOn : BarFields := ⟨.blank, .midpoint, .off, 500⟩

/-- A bar after power-on (R65, R68, R91, R170). -/
def Bar.powerOn : Bar where
  enabled := false
  offset := 0
  asSet := .powerOn
  inEffect := .powerOn
  next := .idle
  darkReported := false
  gapPlay := none
  checkSlot := none

/-- A nozzle entry after power-on (R115). -/
def Nozzle.powerOn : Nozzle := ⟨.good, none, 0, 0, 0⟩

/-- A lane after power-on (R65, R91, R115, R155): ABSENT, with the power-on probe in progress. -/
def Lane.powerOn : Lane where
  assign := none
  head := .absent
  probe := some (.plain false)
  warmTime := .ms40
  warmTimer := none
  settleTimer := none
  park := none
  fire := none
  fireOpen := false
  load := none
  noReply := 0
  check := 0
  number := 0
  exchange := some .identify
  identifies := 1
  drive := 0
  target := 0
  step := 0
  interval := .ms1
  slewTimer := none
  temperature := 0
  limit := 70
  lastFault := none
  retries := 0
  retryTimer := false
  nozzles := List.replicate Config.nozzles .powerOn

/-- The flags each link has (R180, R181): Image 5, Motion 6, Service 9. -/
def flagsOf : LinkId → FlagWord
  | .image => 0x001F
  | .motion => 0x003F
  | .service => 0x01FF

/-- A link after power-on (R172, R179, R187): every flag of the link masked. -/
def Link.powerOn (l : LinkId) : Link where
  assembler := .idle
  discarded := 0
  badCheck := 0
  busy := none
  flags := 0
  mask := flagsOf l
  attn := false

/-- The identify messages of the power-on probes (R71, R91), recorded in lane order: the model's choice (log 36). -/
def powerOnIdentifies : List Sent :=
  [.head .hl0 .identify, .head .hl1 .identify, .head .hl2 .identify, .head .hl3 .identify,
   .head .hl4 .identify, .head .hl5 .identify, .head .hl6 .identify, .head .hl7 .identify]

/-- The part right after power-on with the encoder inputs at the levels a and b (R179). -/
def State.powerOn (a b : Bool) : State where
  position := .powerOn a b
  queue := { pages := [], suppress := false, readyMargin := 64, ready := false }
  ring := { rows := [], roomMark := 256, store := .free }
  bars := .all .powerOn
  lanes := .all .powerOn
  lists := { pending := [], transition := none, stage := 0, superseded := 0 }
  library := { directory := [], memory := [], checks := [], checkCount := 0, truncated := 0 }
  links := { image := .powerOn .image, motion := .powerOn .motion, service := .powerOn .service }
  sent := powerOnIdentifies
  fresh := 0
  pending := []

/-- The machine right after reset: power-on with both encoder inputs low (DESIGN CHOICE, log 7). -/
def State.reset : State := State.powerOn false false

end Sys2Proof.Machine
end

