-- ==== Sys2Proof/Machine/Access.lean ====
section
/-! DEFINITION. Reading and writing the parts of State: one value per bar, lane or link, and one named
update per field. Every later definition goes through these. -/

namespace Sys2Proof.Machine

/-! ### Names in order -/

/-- B0 to B3. -/
def barIds : List BarId := [.b0, .b1, .b2, .b3]

/-- HL0 to HL7. -/
def laneIds : List LaneId := [.hl0, .hl1, .hl2, .hl3, .hl4, .hl5, .hl6, .hl7]

/-- The number of a bar (R180). -/
def barNumber : BarId → Nat
  | .b0 => 0 | .b1 => 1 | .b2 => 2 | .b3 => 3

/-- The number of a lane (R180). -/
def laneNumber : LaneId → Nat
  | .hl0 => 0 | .hl1 => 1 | .hl2 => 2 | .hl3 => 3 | .hl4 => 4 | .hl5 => 5 | .hl6 => 6 | .hl7 => 7

/-- The bar of a number. -/
def barOf : Nat → Option BarId
  | 0 => some .b0 | 1 => some .b1 | 2 => some .b2 | 3 => some .b3 | _ => none

/-- The lane of a number. -/
def laneOf : Nat → Option LaneId
  | 0 => some .hl0 | 1 => some .hl1 | 2 => some .hl2 | 3 => some .hl3
  | 4 => some .hl4 | 5 => some .hl5 | 6 => some .hl6 | 7 => some .hl7 | _ => none

/-! ### One value per bar -/

/-- The value of a bar. -/
def PerBar.get (x : PerBar α) : BarId → α
  | .b0 => x.b0 | .b1 => x.b1 | .b2 => x.b2 | .b3 => x.b3

/-- Replace the value of a bar. -/
def PerBar.set (x : PerBar α) (b : BarId) (v : α) : PerBar α :=
  match b with
  | .b0 => { x with b0 := v }
  | .b1 => { x with b1 := v }
  | .b2 => { x with b2 := v }
  | .b3 => { x with b3 := v }

/-- A value for each bar from a function. -/
def PerBar.ofFn (f : BarId → α) : PerBar α := ⟨f .b0, f .b1, f .b2, f .b3⟩

/-- Change the value of every bar. -/
def PerBar.map (f : α → β) (x : PerBar α) : PerBar β := ⟨f x.b0, f x.b1, f x.b2, f x.b3⟩

/-- The values in bar order. -/
def PerBar.toList (x : PerBar α) : List α := [x.b0, x.b1, x.b2, x.b3]

/-! ### One value per lane -/

/-- The value of a lane. -/
def PerLane.get (x : PerLane α) : LaneId → α
  | .hl0 => x.hl0 | .hl1 => x.hl1 | .hl2 => x.hl2 | .hl3 => x.hl3
  | .hl4 => x.hl4 | .hl5 => x.hl5 | .hl6 => x.hl6 | .hl7 => x.hl7

/-- Replace the value of a lane. -/
def PerLane.set (x : PerLane α) (h : LaneId) (v : α) : PerLane α :=
  match h with
  | .hl0 => { x with hl0 := v }
  | .hl1 => { x with hl1 := v }
  | .hl2 => { x with hl2 := v }
  | .hl3 => { x with hl3 := v }
  | .hl4 => { x with hl4 := v }
  | .hl5 => { x with hl5 := v }
  | .hl6 => { x with hl6 := v }
  | .hl7 => { x with hl7 := v }

/-- A value for each lane from a function. -/
def PerLane.ofFn (f : LaneId → α) : PerLane α :=
  ⟨f .hl0, f .hl1, f .hl2, f .hl3, f .hl4, f .hl5, f .hl6, f .hl7⟩

/-- Change the value of every lane. -/
def PerLane.map (f : α → β) (x : PerLane α) : PerLane β :=
  ⟨f x.hl0, f x.hl1, f x.hl2, f x.hl3, f x.hl4, f x.hl5, f x.hl6, f x.hl7⟩

/-! ### One value per link -/

/-- The value of a link. -/
def PerLink.get (x : PerLink α) : LinkId → α
  | .image => x.image | .motion => x.motion | .service => x.service

/-- Replace the value of a link. -/
def PerLink.set (x : PerLink α) (l : LinkId) (v : α) : PerLink α :=
  match l with
  | .image => { x with image := v }
  | .motion => { x with motion := v }
  | .service => { x with service := v }

/-- Change the value of every link. -/
def PerLink.map (f : α → β) (x : PerLink α) : PerLink β := ⟨f x.image, f x.motion, f x.service⟩

/-! ### One update per field of State -/

/-- Replace the Position Unit. -/
def State.setPosition (s : State) (x : Position) : State := { s with position := x }
/-- Replace the Page Queue. -/
def State.setQueue (s : State) (x : Queue) : State := { s with queue := x }
/-- Replace the Row Ring. -/
def State.setRing (s : State) (x : Ring) : State := { s with ring := x }
/-- Replace the bars. -/
def State.setBars (s : State) (x : PerBar Bar) : State := { s with bars := x }
/-- Replace the lanes. -/
def State.setLanes (s : State) (x : PerLane Lane) : State := { s with lanes := x }
/-- Replace the nozzle lists. -/
def State.setLists (s : State) (x : NozzleLists) : State := { s with lists := x }
/-- Replace the Pattern Library. -/
def State.setLibrary (s : State) (x : Library) : State := { s with library := x }
/-- Replace the links. -/
def State.setLinks (s : State) (x : PerLink Link) : State := { s with links := x }
/-- Replace the record of what was sent. -/
def State.setSent (s : State) (x : List Sent) : State := { s with sent := x }
/-- Replace the count of free values drawn. -/
def State.setFresh (s : State) (x : Nat) : State := { s with fresh := x }
/-- Replace the queue of waiting commands. -/
def State.setPending (s : State) (x : List Instr) : State := { s with pending := x }

/-! ### Bars, lanes, links and pages of a state -/

/-- A bar. -/
def State.bar (s : State) (b : BarId) : Bar := s.bars.get b
/-- A lane. -/
def State.lane (s : State) (h : LaneId) : Lane := s.lanes.get h
/-- A link. -/
def State.link (s : State) (l : LinkId) : Link := s.links.get l
/-- Change one bar. -/
def State.modBar (s : State) (b : BarId) (f : Bar → Bar) : State :=
  s.setBars (s.bars.set b (f (s.bar b)))
/-- Change one lane. -/
def State.modLane (s : State) (h : LaneId) (f : Lane → Lane) : State :=
  s.setLanes (s.lanes.set h (f (s.lane h)))
/-- Change one link. -/
def State.modLink (s : State) (l : LinkId) (f : Link → Link) : State :=
  s.setLinks (s.links.set l (f (s.link l)))
/-- Change the page records. -/
def State.setPages (s : State) (ps : List Page) : State := s.setQueue { s.queue with pages := ps }
/-- The page record of an id (R23: ids are distinct). -/
def State.page (s : State) (id : Nat) : Option Page := s.queue.pages.find? (·.id == id)
/-- Change the page record of an id. -/
def State.modPage (s : State) (id : Nat) (f : Page → Page) : State :=
  s.setPages (s.queue.pages.map fun p => if p.id == id then f p else p)
/-- Change the row records. -/
def State.setRows (s : State) (rs : List RowRec) : State := s.setRing { s.ring with rows := rs }

/-- A counter that saturates (00_scope, Counters). -/
def satAdd (greatest n k : Nat) : Nat := min greatest (n + k)

/-- The greatest value of the 16-bit counters. -/
abbrev max16 : Nat := 65535
/-- The greatest value of the 32-bit counters. -/
abbrev max32 : Nat := 4294967295

end Sys2Proof.Machine
end

