-- ==== Sys2Proof/Machine/Flags.lean ====
section
/-! DEFINITION. Event flags, masks and attention outputs (R181, R182, R180). -/

namespace Sys2Proof.Machine

/-- The names of the event flags (R181). -/
inductive FlagName where
  | pgdone | pgabort | underrun | room | reset | ready | trigskip | overspeed
  | headfault | headfailed | nozzle | parked | checkdone | commitdone | bardark | lanechange
  deriving DecidableEq, Repr

/-- The bit of a flag in its link's event flag word, and no bit where the link has no such flag
(R180, event flag word). -/
def flagBit : LinkId → FlagName → FlagWord
  | .image, .pgdone => 0x0001
  | .image, .pgabort => 0x0002
  | .image, .underrun => 0x0004
  | .image, .room => 0x0008
  | .image, .reset => 0x0010
  | .motion, .ready => 0x0001
  | .motion, .trigskip => 0x0002
  | .motion, .overspeed => 0x0004
  | .motion, .pgdone => 0x0008
  | .motion, .pgabort => 0x0010
  | .motion, .reset => 0x0020
  | .service, .headfault => 0x0001
  | .service, .headfailed => 0x0002
  | .service, .nozzle => 0x0004
  | .service, .parked => 0x0008
  | .service, .checkdone => 0x0010
  | .service, .commitdone => 0x0020
  | .service, .bardark => 0x0040
  | .service, .lanechange => 0x0080
  | .service, .reset => 0x0100
  | _, _ => 0

/-- Raise a flag of a link: it becomes set, and stays set if it was (R181). -/
def State.raise (s : State) (l : LinkId) (f : FlagName) : State :=
  s.modLink l fun k => { k with flags := k.flags ||| flagBit l f }

/-- Whether a link's attention output is asserted: a flag set whose mask bit is clear (R182). -/
def Link.attention (k : Link) : Bool := (k.flags &&& ~~~k.mask) != 0

/-- The attention outputs follow the flags and masks (R182). -/
def State.driveAttention (s : State) : State :=
  s.setLinks (s.links.map fun k => { k with attn := k.attention })

end Sys2Proof.Machine
end

