-- ==== Sys2Proof/Machine/Operands.lean ====
section
/-! DEFINITION. The operand forms of requests and replies: byte order, names, bar sets, lane sets, levels,
codes, edit and geometry entries (R180 and the request sections), the check byte and the reply
packet (R171). -/

namespace Sys2Proof.Machine

/-! ### Bytes (R180: most significant byte first) -/

/-- A two-byte field. -/
def u16 (hi lo : Byte) : Nat := hi.toNat * 256 + lo.toNat

/-- A one-byte field as sent. -/
def be8 (n : Nat) : Byte := BitVec.ofNat 8 n

/-- A two-byte field as sent. -/
def be16 (n : Nat) : List Byte := [be8 (n / 256), be8 n]

/-- A four-byte field as sent. -/
def be32 (n : Nat) : List Byte := be16 (n / 65536) ++ be16 n

/-- Bits as a number, the first of the list in bit 0. -/
def bitsToNat : List Bool → Nat
  | [] => 0
  | b :: bs => (if b then 1 else 0) + 2 * bitsToNat bs

/-- A field of fixed width, padded with bytes of value 0. -/
def padTo (n : Nat) (bs : List Byte) : List Byte := bs.take n ++ List.replicate (n - bs.length) 0

/-! ### Status codes (R180) -/

/-- The value of a status code. -/
def statusCode : Status → Nat
  | .ok => 0 | .badCheck => 1 | .badLength => 2 | .unknown => 3 | .notPermitted => 4 | .busy => 5
  | .badField => 6 | .wrongState => 7 | .full => 8 | .sequence => 9 | .notFound => 10 | .exists_ => 11
  | .noSpace => 12 | .inUse => 13 | .withdrawn => 14 | .failed => 15 | .aborted => 16

/-! ### The check byte and packets (R171) -/

/-- One shift of the check register. -/
def crcShift (r : Byte) : Byte := if r.msb then (r <<< 1) ^^^ 0x2F else r <<< 1

/-- One byte combined into the check register. -/
def crcByte (r b : Byte) : Byte :=
  crcShift (crcShift (crcShift (crcShift (crcShift (crcShift (crcShift (crcShift (r ^^^ b))))))))

/-- The check byte over a run of bytes. -/
def crc8 (bs : List Byte) : Byte := bs.foldl crcByte 0

/-- The bytes of a packet from tag to check byte. -/
def packetBody (tag number : Byte) (payload : List Byte) : List Byte :=
  let covered := tag :: (be16 payload.length ++ number :: payload)
  covered ++ [crc8 covered]

/-- The bytes of a reply on the wire. -/
def replyPacket (tag : Byte) (st : Status) (payload : List Byte) : List Byte :=
  0x5C :: packetBody tag (be8 (statusCode st)) payload

/-! ### Names (R157, R180) -/

/-- A name character: A to Z, 0 to 9 or '-'. -/
def nameChar (b : Byte) : Bool :=
  (0x41 ≤ b.toNat && b.toNat ≤ 0x5A) || (0x30 ≤ b.toNat && b.toNat ≤ 0x39) || b.toNat == 0x2D

/-- A name field of eight bytes in a reply; an absent name is eight bytes of 0. -/
def nameField : Option Name → List Byte
  | some n => padTo 8 n
  | none => padTo 8 []

/-- The name in an eight-byte padded field, if it is well made (R159). -/
def paddedName (field : List Byte) : Option Name :=
  let n := field.takeWhile (· != 0)
  if n != [] && n.all nameChar && (field.drop n.length).all (· == 0) then some n else none

/-! ### Sets -/

/-- Which bars a bar set byte names. -/
def barSetOf (b : Byte) : PerBar Bool := .ofFn fun i => b.toNat.testBit (barNumber i)

/-- A bar set as sent. -/
def barSetByte (x : PerBar Bool) : Byte := be8 (bitsToNat x.toList)

/-- Which lanes a lane set byte names. -/
def laneSetOf (b : Byte) : PerLane Bool := .ofFn fun i => b.toNat.testBit (laneNumber i)

/-- A lane set as sent. -/
def laneSetByte (x : PerLane Bool) : Byte := be8 (bitsToNat (laneIds.map x.get))

/-! ### Levels (R180) -/

/-- A level from its two bits. -/
def levelOf (n : Nat) : Level :=
  if n % 4 = 0 then .l0 else if n % 4 = 1 then .l1 else if n % 4 = 2 then .l2 else .l3

/-- The value of a level. -/
def Level.val : Level → Nat
  | .l0 => 0 | .l1 => 1 | .l2 => 2 | .l3 => 3

/-- The four levels of a byte, level 4k in bits 1..0. -/
def unpackByte (b : Byte) : List Level :=
  [levelOf b.toNat, levelOf (b.toNat / 4), levelOf (b.toNat / 16), levelOf (b.toNat / 64)]

/-- The first n levels of packed bytes. -/
def unpackLevels (n : Nat) (bs : List Byte) : List Level := (bs.flatMap unpackByte).take n

/-! ### Codes -/

/-- Reply mode byte: 1 is WAIT (R175). -/
def replyMode (b : Byte) : Option Bool :=
  if b.toNat = 0 then some false else if b.toNat = 1 then some true else none

/-- Warm time code of HDON; 0 keeps the present warm time (R73). -/
def warmCode (old : WarmTime) (n : Nat) : Option WarmTime :=
  match n with
  | 0 => some old | 1 => some .ms20 | 2 => some .ms40 | 3 => some .ms80 | 4 => some .ms160 | _ => none

/-- Step code of DRVSET (R141). -/
def stepCode (n : Nat) : Option Nat :=
  match n with
  | 0 => some 0 | 1 => some 1 | 2 => some 2 | 3 => some 4 | 4 => some 8 | 5 => some 16 | 6 => some 32
  | _ => none

/-- Interval code of DRVSET (R141). -/
def intervalCode (n : Nat) : Option SlewInterval :=
  match n with
  | 0 => some .half | 1 => some .ms1 | 2 => some .ms2 | 3 => some .ms4 | 4 => some .ms8 | _ => none

/-- Trigger source code of LNSETUP (R58). -/
def sourceOf (n : Nat) : Option TriggerSource :=
  match n with
  | 0 => some .pdet | 1 => some .link | 2 => some .auto | _ => none

/-- Trigger source as sent (R180). -/
def sourceCode : TriggerSource → Nat
  | .pdet => 0 | .link => 1 | .auto => 2

/-- Page state as sent (R180). -/
def pageStateCode : PageState → Nat
  | .declared => 0 | .armed => 1 | .printing => 2 | .done => 3 | .aborted => 4

/-- Abort cause as sent (R180). -/
def causeCode : Option AbortCause → Nat
  | none => 0 | some .cancelled => 1 | some .motionAbort => 2 | some .underrunHalt => 3

/-- Head state as sent (R180). -/
def headStateCode : HeadState → Nat
  | .absent => 0 | .off => 1 | .warming => 2 | .active => 3 | .settling _ => 4 | .parked => 5
  | .recovery => 6 | .failed => 7

/-- Last fault as sent (R180). -/
def faultCode : Option HeadFault → Nat
  | none => 0 | some .overtemp => 1 | some .driveFault => 2 | some .laneLoss => 3 | some .laneError => 4

/-- The runtime fields of a BARSET from policy, handover, keep-wet mode and limit (R68). -/
def barFieldsOf (policy handover keepWet limit : Nat) : Option BarFields :=
  let pol := match policy with | 0 => some UnderrunPolicy.blank | 1 => some .halt | _ => none
  let han := match handover with | 0 => some Handover.midpoint | 1 => some .interleave | _ => none
  let wet := match keepWet with
    | 0 => some KeepWet.off | 1 => some .tickle | 2 => some .spitGap | 3 => some .spitAny | _ => none
  match pol, han, wet with
  | some p, some h, some k => if 1 ≤ limit ∧ limit ≤ 4095 then some ⟨p, h, k, limit⟩ else none
  | _, _, _ => none

/-! ### Edit entries (R98) -/

/-- The new state of an edit entry. -/
def newStateOf (n : Nat) : Option NewState :=
  match n with
  | 0 => some .good | 1 => some .weak | 2 => some .disabled | 3 => some .failed | _ => none

/-- A field of an edit entry that its presence bit may leave out: `some none` where it is left out,
`none` where it is given and out of range. -/
def optionalField (present : Bool) (x : Option α) : Option (Option α) :=
  if present then x.map some else some none

/-- The new substitute of an edit entry, for a run of nozzles: 0 is "none" (R98). -/
def newSubOf (first count : Nat) (v : Int) : Option NewSub :=
  if v = 0 then some .clear
  else if -3 ≤ v ∧ v ≤ 3 ∧ 0 ≤ (first : Int) + v ∧ (first : Int) + count - 1 + v ≤ 1023
  then some (.offset v) else none

/-- The new trim of an edit entry. -/
def newTrimOf (v : Int) : Option Int := if -7 ≤ v ∧ v ≤ 7 then some v else none

/-- The edit of a nine-byte entry, or none if the entry is malformed (R98). -/
def editOf (mark : Line) : List Byte → Option Edit
  | [lane, fh, fl, ch, cl, presence, st, sub, trim] =>
    let first := u16 fh fl
    let count := u16 ch cl
    let p := presence.toNat
    if first ≤ 1023 ∧ 1 ≤ count ∧ first + count ≤ 1024 ∧ 1 ≤ p ∧ p ≤ 7 then
      match laneOf lane.toNat, optionalField (p.testBit 0) (newStateOf st.toNat),
          optionalField (p.testBit 1) (newSubOf first count sub.toInt),
          optionalField (p.testBit 2) (newTrimOf trim.toInt) with
      | some h, some s, some u, some t => some ⟨h, first, count, s, u, t, [], mark⟩
      | _, _, _, _ => none
    else none
  | _ => none

/-- The edits of n entries, or none if any is malformed (R98). -/
def editsOf (mark : Line) : Nat → List Byte → Option (List Edit)
  | 0, _ => some []
  | n + 1, bs =>
    match editOf mark (bs.take 9), editsOf mark n (bs.drop 9) with
    | some e, some es => some (e :: es)
    | _, _ => none

/-! ### Geometry entries (R66) -/

/-- A lane entry of GEOSET: none where it is out of range, `some none` for UNASSIGNED. -/
def laneEntryOf : List Byte → Option (Option Assign)
  | [bar, slot, fh, fl] =>
    if bar.toNat = 255 then some none
    else
      match barOf bar.toNat with
      | some b =>
        if slot.toNat ≤ 3 ∧ u16 fh fl ≤ 3072 then some (some ⟨b, slot.toNat, u16 fh fl⟩) else none
      | none => none
  | _ => none

/-- A bar entry of GEOSET: enabled flag and offset. -/
def barEntryOf : List Byte → Option (Bool × Nat)
  | [en, oh, ol] =>
    if en.toNat ≤ 1 ∧ u16 oh ol ≤ 8191 then some (en.toNat == 1, u16 oh ol) else none
  | _ => none

/-- The lane entries of a GEOSET payload. -/
def laneEntries (p : List Byte) : PerLane (Option (Option Assign)) :=
  .ofFn fun h => laneEntryOf ((p.drop (4 * laneNumber h)).take 4)

/-- The bar entries of a GEOSET payload. -/
def barEntries (p : List Byte) : PerBar (Option (Bool × Nat)) :=
  .ofFn fun b => barEntryOf ((p.drop (32 + 3 * barNumber b)).take 3)

end Sys2Proof.Machine
end

