-- ==== Sys2Proof/Machine/Ops.lean ====
section
/-! DEFINITION. The named operations the blocks share: sending and replying, READY and ROOM at the end of an
event, free choices, the Row Ring, page counters, pattern memory. -/

namespace Sys2Proof.Machine

/-! ### Sending and replying (R171, R173, R175) -/

/-- Send a reply or a lane message (log 1). -/
def State.send (s : State) (m : Sent) : State := s.setSent (s.sent ++ [m])

/-- Send a reply on a link. -/
def State.reply (s : State) (l : LinkId) (tag : Byte) (st : Status) (payload : List Byte) : State :=
  s.send (.reply l tag st payload)

/-- A reply that refuses a request has no payload, and the request changes nothing (R173). -/
def State.refuse (s : State) (l : LinkId) (tag : Byte) (st : Status) : State := s.reply l tag st []

/-- Set or clear the request in progress of a link (R174). -/
def State.setBusy (s : State) (l : LinkId) (x : Option InProgress) : State :=
  s.modLink l fun k => { k with busy := x }

/-- A waiting request of the Service link for this operation replies and is no longer in progress
(R175). Nothing happens if no request waits for it. -/
def State.endWait (s : State) (op : WaitOp) (st : Status) (payload : List Byte) : State :=
  match (s.link .service).busy with
  | some (.waiting tag op') =>
    if op' = op then (s.setBusy .service none).reply .service tag st payload else s
  | _ => s

/-! ### Free choices (log 2) -/

/-- Count one free value drawn. -/
def State.draw (s : State) : State := s.setFresh (s.fresh + 1)

/-- Run queues of tasks, each queue in its order, the queue to go next chosen by a free value. `n` bounds
the number of tasks run. -/
def runTasks {τ : Type} (run : τ → State → State) : Nat → List (List τ) → State → State
  | 0, _, s => s
  | n + 1, qs, s =>
    let qs := qs.filter (! ·.isEmpty)
    let i := Config.pick s.fresh % qs.length
    match qs[i]? with
    | some (t :: rest) => runTasks run n (qs.set i rest) (run t s.draw)
    | _ => s

/-! ### Geometry (R65) -/

/-- Whether a lane is assigned to a bar. -/
def Lane.onBar (ln : Lane) (b : BarId) : Bool :=
  match ln.assign with
  | some a => a.bar == b
  | none => false

/-- The lanes assigned to a bar. -/
def State.lanesOf (s : State) (b : BarId) : List LaneId := laneIds.filter fun h => (s.lane h).onBar b

/-- The lanes of a bar whose head is ACTIVE. -/
def State.activeLanes (s : State) (b : BarId) : List LaneId :=
  (s.lanesOf b).filter fun h => (s.lane h).head == .active

/-- The lane of a slot of a bar, with its first column. -/
def slotLane (asg : PerLane (Option Assign)) (b : BarId) (k : Nat) : Option (LaneId × Nat) :=
  laneIds.findSome? fun h =>
    match asg.get h with
    | some a => if a.bar = b ∧ a.slot = k then some (h, a.first) else none
    | none => none

/-- The lanes of a bar in slot order, with their first columns. -/
def slotOrder (asg : PerLane (Option Assign)) (b : BarId) : List (LaneId × Nat) :=
  [0, 1, 2, 3].filterMap (slotLane asg b)

/-- The assignments of the present geometry. -/
def State.assigns (s : State) : PerLane (Option Assign) := s.lanes.map (·.assign)

/-- The first column of a bar's slot 0 head; 0 for a bar with none. -/
def State.barFirst (s : State) (b : BarId) : Nat :=
  match (slotOrder s.assigns b).head? with
  | some (_, c) => c
  | none => 0

/-- The bar width (R65). -/
def State.barWidth (s : State) (b : BarId) : Nat :=
  match (slotOrder s.assigns b).getLast? with
  | some (_, c) => c + 1024 - s.barFirst b
  | none => 0

/-- Whether every bar of a set is enabled in the geometry. -/
def State.barsEnabled (s : State) (x : PerBar Bool) : Bool :=
  barIds.all fun b => !x.get b || (s.bar b).enabled

/-! ### Pages (R23 to R25, R33, R77) -/

/-- Whether a bar is in the page's bar set. -/
def Page.hasBar (p : Page) (b : BarId) : Bool := (p.progress.get b).isSome

/-- The page's bar set. -/
def Page.bars (p : Page) : PerBar Bool := p.progress.map Option.isSome

/-- The ARMED page. -/
def State.armedPage (s : State) : Option Page := s.queue.pages.find? (·.state == .armed)

/-- Whether any page is PRINTING. -/
def State.anyPrinting (s : State) : Bool := s.queue.pages.any (·.state == .printing)

/-- The oldest DECLARED page becomes ARMED (R25). -/
def armOldest : List Page → List Page
  | [] => []
  | p :: ps => if p.state = .declared then { p with state := .armed } :: ps else p :: armOldest ps

/-- A bar's current page: the oldest PRINTING page whose bar set holds the bar and which the bar has not
passed whole (R77). -/
def State.currentPage (s : State) (b : BarId) : Option Page :=
  s.queue.pages.find? fun p =>
    p.state == .printing &&
      match p.progress.get b with
      | some n => n < p.rowCount
      | none => false

/-- One row missed late at one head (R33). -/
def Page.countLate (p : Page) : Page :=
  { p with missedLate := satAdd max16 p.missedLate 1, degraded := true }

/-- One row missed for overspeed at one head (R33). -/
def Page.countOverspeed (p : Page) : Page :=
  { p with missedOverspeed := satAdd max16 p.missedOverspeed 1, degraded := true }

/-- One row missed as an underrun at one bar (R33). -/
def Page.countUnderrun (p : Page) : Page :=
  { p with missedUnderrun := satAdd max16 p.missedUnderrun 1, degraded := true }

/-- One row suppressed at one bar (R33, R42). -/
def Page.countSuppressed (p : Page) : Page :=
  { p with suppressed := satAdd max16 p.suppressed 1 }

/-- Tallies added to the page; a lost tally of 1 or more sets the degraded flag (R133). -/
def Page.addTallies (p : Page) (lost sub : Nat) : Page :=
  { p with
    lost := satAdd max32 p.lost lost
    substituted := satAdd max32 p.substituted sub
    degraded := p.degraded || decide (1 ≤ lost) }

/-- A counter from which a tally is taken back; one at its greatest value keeps it (R134). -/
def takeBack (n k : Nat) : Nat := if n = max32 then n else n - k

/-- Tallies taken back out of the page; the degraded flag stays (R134). -/
def Page.takeTallies (p : Page) (lost sub : Nat) : Page :=
  { p with lost := takeBack p.lost lost, substituted := takeBack p.substituted sub }

/-! ### The Row Ring (R1 to R7, R15 to R18) -/

/-- The free slot count (R1). -/
def State.freeSlots (s : State) : Nat := Config.ringSlots - s.ring.rows.length

/-- Whether a part is not ABSENT. -/
def RowPart.arrived (x : RowPart) : Bool :=
  match x.status with
  | .absent => false
  | _ => true

/-- A row is complete when none of its parts is ABSENT (R3). -/
def RowRec.isComplete (r : RowRec) : Bool :=
  r.parts.toList.all fun
    | some x => x.arrived
    | none => true

/-- Whether every bar of the set has passed the row (R15). -/
def RowRec.allPassed (r : RowRec) : Bool :=
  r.parts.toList.all fun
    | some x => x.passed
    | none => true

/-- Whether a record is that of a row. -/
def RowRec.isRow (r : RowRec) (page row : Nat) : Bool := r.page == page && r.row == row

/-- The record of a row. -/
def State.row (s : State) (page row : Nat) : Option RowRec := s.ring.rows.find? (·.isRow page row)

/-- Change the record of a row. -/
def State.modRow (s : State) (page row : Nat) (f : RowRec → RowRec) : State :=
  s.setRows (s.ring.rows.map fun r => if r.isRow page row then f r else r)

/-- Whether a row is held and complete (R4). -/
def State.rowComplete (s : State) (page row : Nat) : Bool :=
  match s.row page row with
  | some r => r.isComplete
  | none => false

/-- A row that is finished holds its slot until it is released (R17): the retired flag. -/
def RowRec.settle (r : RowRec) : RowRec := if r.allPassed then { r with retired := true } else r

/-- Release from the oldest end: finished rows without a write in flight (R17). -/
def releaseRows (rs : List RowRec) : List RowRec := rs.dropWhile fun r => r.retired && r.writing.isNone

/-- The release check (R17). -/
def State.release (s : State) : State := s.setRows (releaseRows s.ring.rows)

/-- A new row record: its passed flags follow the page's per-bar progress (R2, R15). -/
def newRow (p : Page) (row : Nat) (st : PartStatus) (writing : Option BarId) : RowRec :=
  RowRec.settle
    { page := p.id
      row := row
      parts := p.progress.map (Option.map fun next => ⟨st, decide (row < next)⟩)
      retired := false
      writing := writing }

/-- A bar's passed flag of a record set (R15). -/
def RowRec.passAt (r : RowRec) (b : BarId) : RowRec :=
  RowRec.settle
    { r with parts := r.parts.set b ((r.parts.get b).map fun x => { x with passed := true }) }

/-- A bar passes a row: its flag is set if the record is held, and finished rows are released
(R15, R17). -/
def State.passRow (s : State) (page row : Nat) (b : BarId) : State :=
  (s.modRow page row (·.passAt b)).release

/-- Every held row of a page becomes finished, and rows that are due are released (R16, R17). -/
def State.finishRows (s : State) (page : Nat) : State :=
  (s.setRows (s.ring.rows.map fun r => if r.page == page then { r with retired := true } else r)).release

/-- The intake page (R6). -/
def State.intakePage (s : State) : Option Page :=
  s.queue.pages.find? fun p => decide (p.delivered < p.rowCount) && p.state != .aborted

/-- Whether a page is the intake page. -/
def State.isIntake (s : State) (id : Nat) : Bool :=
  match s.intakePage with
  | some p => p.id == id
  | none => false

/-- Whether the ring holds a page id (R7). -/
def State.ringHolds (s : State) (id : Nat) : Bool := s.ring.rows.any (·.page == id)

/-! ### Pattern memory (R157)

A list of (address, byte) in canonical form: addresses rising, no byte equal to 0, which is what an
address that is not listed reads as (log 10). -/

namespace Memory

/-- The canonical form. -/
def wf : List Host.Cell → Bool
  | [] => true
  | [(_, v)] => v != 0
  | (a, v) :: (b, w) :: m => v != 0 && decide (a < b) && wf ((b, w) :: m)

/-- Read one byte. -/
def read : List Host.Cell → Nat → Byte
  | [], _ => 0
  | (k, v) :: m, a => if k = a then v else read m a

/-- Write one byte. -/
def write : List Host.Cell → Nat → Byte → List Host.Cell
  | [], a, v => if v = 0 then [] else [(a, v)]
  | (k, w) :: m, a, v =>
    if k < a then (k, w) :: write m a v
    else if k = a then (if v = 0 then m else (a, v) :: m)
    else if v = 0 then (k, w) :: m else (a, v) :: (k, w) :: m

/-- Write a run of bytes from an address on. -/
def writeRun (m : List Host.Cell) (a : Nat) : List Byte → List Host.Cell
  | [] => m
  | b :: bs => writeRun (write m a b) (a + 1) bs

/-- Read a run of n bytes from an address on. -/
def readRun (m : List Host.Cell) (a : Nat) : Nat → List Byte
  | 0 => []
  | n + 1 => read m a :: readRun m (a + 1) n

end Memory

/-- The address of the first byte of a memory row. -/
def rowAddress (row : Nat) : Nat := 256 * row

/-- The 1,024 levels of a memory row. -/
def State.patternRow (s : State) (row : Nat) : List Level :=
  unpackLevels 1024 (Memory.readRun s.library.memory (rowAddress row) 256)

/-- The directory entry of a name (R157: names are distinct). -/
def State.pattern (s : State) (n : Name) : Option Pattern := s.library.directory.find? (·.name == n)

/-! ### READY, ROOM and the end of an event (R18, R43, R182; log 25) -/

/-- The three conditions of READY (R43). -/
def State.readyCondition (s : State) : Bool :=
  match s.armedPage with
  | none => false
  | some p =>
    (decide (s.queue.readyMargin ≤ p.complete) || p.complete == p.rowCount) &&
      barIds.all fun b => !p.hasBar b || !(s.activeLanes b).isEmpty

/-- READY follows its conditions; each change raises READY on the Motion link (R43). -/
def State.driveReady (s : State) : State :=
  if s.readyCondition = s.queue.ready then s
  else (s.setQueue { s.queue with ready := s.readyCondition }).raise .motion .ready

/-- ROOM is raised when an event takes the free slot count from below the room mark to it or above
(R18). -/
def State.raiseRoom (s : State) (freeBefore : Nat) : State :=
  if freeBefore < s.ring.roomMark ∧ s.ring.roomMark ≤ s.freeSlots then s.raise .image .room else s

/-- One event, taken whole: its effect, then ROOM, READY and the attention outputs as they follow from
it. -/
def event (f : State → State) (s : State) : State :=
  (((f s).raiseRoom s.freeSlots).driveReady).driveAttention

end Sys2Proof.Machine
end

