-- ==== Sys2Proof/Machine/NozzleTable.lean ====
section
/-! DEFINITION. The nozzle table: writing edits, the two views, the end of a transition, auto-marks
(05_the_nozzle_condition_table.md). -/

namespace Sys2Proof.Machine

/-! ### Edits (R95, R96) -/

/-- Whether a nozzle is FAILED or DISABLED (R94). -/
def NozzleState.unfit : NozzleState → Bool
  | .good | .weak => false
  | .disabled | .failed _ => true

/-- Whether two states are the same state, whatever the fail cause (R96). -/
def NozzleState.same : NozzleState → NozzleState → Bool
  | .good, .good | .weak, .weak | .disabled, .disabled | .failed _, .failed _ => true
  | _, _ => false

/-- The state an edit's new state gives; FAILED by an edit has cause SET (R96). -/
def NewState.toState : NewState → NozzleState
  | .good => .good | .weak => .weak | .disabled => .disabled | .failed => .failed .set

/-- The substitute an edit's new substitute gives. -/
def NewSub.toSub : NewSub → Option Int
  | .clear => none
  | .offset v => some v

/-- The nozzles an edit targets (R95). -/
def Edit.targets (e : Edit) (h : LaneId) (n : Nat) : Bool :=
  e.lane == h && decide (e.first ≤ n) && decide (n < e.first + e.count) && !e.excluded.contains n

/-- Writing an edit into one entry (R96). -/
def Edit.writeTo (e : Edit) (x : Nozzle) : Nozzle :=
  let st := (e.state.map NewState.toState).getD x.state
  let trim := e.trim.getD x.trim
  let moved := !st.same x.state
  { state := st
    sub := (e.sub.map NewSub.toSub).getD x.sub
    trim := trim
    acc := if moved || trim != x.trim then 0 else x.acc
    idle := if moved then 0 else x.idle }

/-- Writing an edit into the entries of a lane from nozzle n on. -/
def Edit.writeFrom (e : Edit) (h : LaneId) : Nat → List Nozzle → List Nozzle
  | _, [] => []
  | n, x :: xs => (if e.targets h n then e.writeTo x else x) :: Edit.writeFrom e h (n + 1) xs

/-- Edits written in list order, each wholly before the next (R96). -/
def writeEdits (es : List Edit) (h : LaneId) (xs : List Nozzle) : List Nozzle :=
  es.foldl (fun xs e => e.writeFrom h 0 xs) xs

/-- Edits written into the table (R96, R103). -/
def State.writeTable (s : State) (es : List Edit) : State :=
  s.setLanes (.ofFn fun h => { s.lane h with nozzles := writeEdits es h (s.lane h).nozzles })

/-! ### Views (R105) -/

/-- An entry of the transition view: the written entry with the table's own accumulator and idle
count. -/
def overlay (own written : Nozzle) : Nozzle := { written with acc := own.acc, idle := own.idle }

/-- The entries of a lane in a view (R105). -/
def State.viewNozzles (s : State) (v : View) (h : LaneId) : List Nozzle :=
  let own := (s.lane h).nozzles
  match v, s.lists.transition with
  | .transition, some t => List.zipWith overlay own (writeEdits t.edits h own)
  | _, _ => own

/-- The view a bar uses for the loads it begins: the transition view for a bar of the transition's set
whose switched flag is set (R105). -/
def State.barView (s : State) (b : BarId) : View :=
  match s.lists.transition with
  | some t => if t.switched.get b = some true then .transition else .table
  | none => .table

/-- A load record put back to the table view (log 20). -/
def BarNext.tableView : BarNext → BarNext
  | .page pl => .page { pl with view := .table }
  | n => n

/-- The end of a transition: the edits are written, the Transition List is empty, COMMITDONE is raised, a
waiting NZCOMMIT replies OK with the number written (R106, R107, R108), and so before the reply, on another link, of the
request that ended the transition (log 36). Loads that kept the transition
view read the table from then on, which holds the edits. -/
def State.endTransition (s : State) : State :=
  match s.lists.transition with
  | none => s
  | some t =>
    let s := s.writeTable t.edits
    let s := s.setLists { s.lists with transition := none }
    let s := s.setBars (s.bars.map fun x => { x with next := x.next.tableView })
    (s.raise .service .commitdone).endWait .nzcommit .ok (be16 t.edits.length)

/-- The transition of a page ends with the page's abort or removal (R107). -/
def State.endTransitionOf (s : State) (page : Nat) : State :=
  match s.lists.transition with
  | some t => if t.page = page then s.endTransition else s
  | none => s

/-- A bar switches at the beginning of its load of the transition's row; the last switch ends the
transition (R106). -/
def State.switchBar (s : State) (b : BarId) (page row : Nat) : State :=
  match s.lists.transition with
  | some t =>
    if t.page = page ∧ t.row = row ∧ t.switched.get b = some false then
      let sw := t.switched.set b (some true)
      let s := s.setLists { s.lists with transition := some { t with switched := sw } }
      if sw.toList.all (· != some false) then s.endTransition else s
    else s
  | none => s

/-! ### Auto-marks (R110) -/

/-- The entry of a nozzle an auto-mark marks: FAILED, counts 0, substitute and trim kept. -/
def Nozzle.mark (c : ReportCause) (x : Nozzle) : Nozzle :=
  { x with
    state := .failed (match c with | .openNozzle => .openNozzle | .short => .short)
    acc := 0
    idle := 0 }

/-- The nozzle an auto-mark takes joins the excluded set of an edit that targets it. -/
def Edit.exclude (h : LaneId) (n : Nat) (e : Edit) : Edit :=
  if e.targets h n then { e with excluded := e.excluded ++ [n] } else e

/-- The nozzle excluded from every edit of a list; an edit left targeting nothing is removed. -/
def excludeFrom (h : LaneId) (n : Nat) (es : List Edit) : List Edit :=
  (es.map (Edit.exclude h n)).filter fun e => decide (e.excluded.length < e.count)

/-- How many edits of a list target a nozzle. -/
def targeting (h : LaneId) (n : Nat) (es : List Edit) : Nat := es.countP (·.targets h n)

/-- The edits of the transition, if there is one. -/
def NozzleLists.transitionEdits (x : NozzleLists) : List Edit :=
  match x.transition with
  | some t => t.edits
  | none => []

/-- The two lists after an auto-mark (R110 steps 1 and 4, R113). -/
def NozzleLists.mark (x : NozzleLists) (h : LaneId) (n : Nat) : NozzleLists where
  pending := excludeFrom h n x.pending
  transition := x.transition.map fun t => { t with edits := excludeFrom h n t.edits }
  stage := x.stage + 1
  superseded :=
    satAdd max16 x.superseded (targeting h n x.pending + targeting h n x.transitionEdits)

/-- One auto-mark, taken whole; a nozzle index above 1023 is discarded (R110). -/
def State.autoMark (s : State) (h : LaneId) (r : NozzleReport) : State :=
  if r.nozzle < 1024 then
    let s := s.setLists (s.lists.mark h r.nozzle)
    let s := s.modLane h fun ln => { ln with nozzles := ln.nozzles.modify r.nozzle (·.mark r.cause) }
    s.raise .service .nozzle
  else s

end Sys2Proof.Machine
end

