-- ==== Sys2Proof/Machine/Assembler.lean ====
section
/-! DEFINITION. The Drop Assembler: one assignment of a row's plane part, of a pattern row or of a gap row
to the nozzles of the heads that take part (06_drop_assignment.md). -/

namespace Sys2Proof.Machine

/-! ### Levels -/

/-- The larger of two levels (R124). -/
def Level.larger (a b : Level) : Level := if a.val < b.val then b else a

/-- One level up, held at 3 (R126). -/
def Level.up : Level → Level
  | .l0 => .l0 | .l1 => .l2 | .l2 => .l3 | .l3 => .l3

/-- One level down, held at 1 (R126). -/
def Level.down : Level → Level
  | .l0 => .l0 | .l1 => .l1 | .l2 => .l1 | .l3 => .l2

/-! ### Step 1 and 2: handover, takeover and overlap rescue (R120 to R123) -/

/-- What lies over a nozzle's column besides it: nothing, the head of the higher slot (`right`), or the
head of the lower slot (`left`), at overlap column j of w. -/
inductive Partner where
  | sole
  | right (j w : Nat) (takesPart : Bool) (entry : Nozzle)
  | left (j w : Nat) (takesPart : Bool) (entry : Nozzle)
  deriving DecidableEq, Repr

/-- Whether an overlap column goes to the head of the lower slot, both taking part (R121). -/
def goesToLower (mode : Handover) (row column j w : Nat) : Bool :=
  match mode with
  | .midpoint => decide (j < w / 2)
  | .interleave => (column + row) % 2 == 0

/-- Whether step 1 gives a pixel of the column to this head (R120, R121, R122). -/
def given (mode : Handover) (row column : Nat) (takesPart : Bool) : Partner → Bool
  | .sole => takesPart
  | .right j w other _ => takesPart && (!other || goesToLower mode row column j w)
  | .left j w other _ => takesPart && (!other || !goesToLower mode row column j w)

/-- Whether a FAILED or DISABLED nozzle's pixel moves to the partner's nozzle (R123). -/
def rescuedAway (own : Nozzle) : Partner → Bool
  | .sole => false
  | .right _ _ other e | .left _ _ other e => own.state.unfit && other && e.state == .good

/-- Whether this nozzle takes the pixel of the partner's unfit nozzle, which step 1 gave it to (R123). -/
def rescues (mode : Handover) (row column : Nat) (takesPart : Bool) (own : Nozzle) (p : Partner) :
    Bool :=
  match p with
  | .sole => false
  | .right _ _ other e | .left _ _ other e =>
    takesPart && other && !given mode row column takesPart p && own.state == .good && e.state.unfit

/-- Whether the nozzle holds its column's pixel after step 2. -/
def holds (mode : Handover) (row column : Nat) (takesPart : Bool) (own : Nozzle) (p : Partner) : Bool :=
  (given mode row column takesPart p && !rescuedAway own p) || rescues mode row column takesPart own p

/-- Whether the column's pixel goes to no nozzle because no head over it takes part; told at the head of
the lower slot, so that a column counts once (R120, R122, R133). -/
def unheld (takesPart : Bool) : Partner → Bool
  | .sole => !takesPart
  | .right _ _ other _ => !takesPart && !other
  | .left _ _ _ _ => false

/-- A nozzle with the level it holds and the column's own level. -/
structure Spot where
  entry : Nozzle
  partner : Partner
  pixel : Level
  level : Level
  deriving DecidableEq, Repr

/-- Steps 1 and 2 at the nozzles of a head from a column on. -/
def spotsFrom (mode : Handover) (row : Nat) (takesPart : Bool) :
    Nat → List Nozzle → List Partner → List Level → List Spot
  | column, x :: xs, p :: ps, v :: vs =>
    ⟨x, p, v, if holds mode row column takesPart x p then v else .l0⟩ ::
      spotsFrom mode row takesPart (column + 1) xs ps vs
  | _, _, _, _ => []

/-! ### Step 3: substitution (R124, R125) -/

/-- The nozzle a donor's level moves to, if it has a GOOD substitute (R124). -/
def substituteOf (entries : List Nozzle) (n : Nat) (x : Nozzle) : Option Nat :=
  match x.sub with
  | some d =>
    let m := ((n : Int) + d).toNat
    match entries[m]? with
    | some y => if 0 ≤ (n : Int) + d ∧ y.state = .good then some m else none
    | none => none
  | none => none

/-- The donors from nozzle n on: where each donor's level goes (none: it goes to no nozzle) and the
level. -/
def donorsFrom (entries : List Nozzle) : Nat → List Spot → List (Option Nat × Level)
  | _, [] => []
  | n, x :: xs =>
    if x.entry.state.unfit && x.level != .l0
    then (substituteOf entries n x.entry, x.level) :: donorsFrom entries (n + 1) xs
    else donorsFrom entries (n + 1) xs

/-- The level of nozzle n after step 3: an unfit nozzle holds 0, a fit one the largest of its own level
and the levels moved to it. -/
def afterSubstitution (donors : List (Option Nat × Level)) (n : Nat) (x : Spot) : Level :=
  if x.entry.state.unfit then .l0
  else donors.foldl (fun v d => if d.1 = some n then v.larger d.2 else v) x.level

/-! ### Step 4: density trim (R126) -/

/-- The final level and the accumulator of a nozzle that holds a level after step 3. -/
def trimmed (x : Nozzle) (v : Level) : Level × Nat :=
  if v = .l0 ∨ x.state.unfit ∨ x.trim = 0 then (v, x.acc)
  else
    let a := x.acc + x.trim.natAbs
    if 16 ≤ a then (if 0 < x.trim then v.up else v.down, a - 16) else (v, a)

/-! ### Step 5: keep-wet (R128, R119) -/

/-- Row kinds (R119). -/
inductive RowKind where
  | page | spit | check | gap
  deriving DecidableEq, Repr

/-- The keep-wet limit of a nozzle (R128). -/
def keepWetLimit (limit : Nat) : NozzleState → Option Nat
  | .good => some limit
  | .weak => some (max 1 (limit / 2))
  | .disabled | .failed _ => none

/-- Whether a nozzle is due (R128). -/
def due (limit : Nat) (x : Nozzle) (v : Level) : Bool :=
  match keepWetLimit limit x.state with
  | some k => decide (k - 1 ≤ x.idle) && v == .l0
  | none => false

/-- What a nozzle gets in the load: its level after step 4, or a mark (R128). -/
def keepWetDrop (kind : RowKind) (f : BarFields) (x : Nozzle) (v : Level) : Drop :=
  if kind != .check && due f.limit x v then
    match f.keepWet, kind with
    | .off, _ => ⟨v, .plain⟩
    | .tickle, _ => ⟨v, .tickle⟩
    | .spitAny, _ => ⟨.l1, .spit⟩
    | .spitGap, .page => ⟨v, .plain⟩
    | .spitGap, _ => ⟨.l1, .spit⟩
  else ⟨v, .plain⟩

/-! ### One head's share of a page row -/

/-- The result of an assignment at one head. -/
structure HeadShare where
  drops : List Drop
  accs : List Nat
  lost : Nat
  substituted : Nat
  deriving DecidableEq, Repr

/-- Steps 3 to 5 at the nozzles of a head from nozzle n on: drops and accumulators. -/
def finishFrom (f : BarFields) (donors : List (Option Nat × Level)) :
    Nat → List Spot → List (Drop × Nat)
  | _, [] => []
  | n, x :: xs =>
    let t := trimmed x.entry (afterSubstitution donors n x)
    (keepWetDrop .page f x.entry t.1, t.2) :: finishFrom f donors (n + 1) xs

/-- The assignment of a page row at one head of the bar (R117, R133). -/
def headShare (f : BarFields) (row first : Nat) (takesPart : Bool) (entries : List Nozzle)
    (partners : List Partner) (levels : List Level) : HeadShare :=
  let spots := spotsFrom f.handover row takesPart first entries partners levels
  let donors := donorsFrom entries 0 spots
  let out := finishFrom f donors 0 spots
  { drops := out.map (·.1)
    accs := out.map (·.2)
    lost := donors.countP (·.1.isNone) + spots.countP fun x => unheld takesPart x.partner && x.pixel != .l0
    substituted := donors.countP (·.1.isSome) }

/-- A head of the bar at an assignment. -/
structure AssignHead where
  lane : LaneId
  first : Nat
  takesPart : Bool
  entries : List Nozzle
  deriving DecidableEq, Repr

/-- The overlap partners from index j of a run on. -/
def partnersFrom (mk : Nat → Nozzle → Partner) : Nat → List Nozzle → List Partner
  | _, [] => []
  | j, x :: xs => mk j x :: partnersFrom mk (j + 1) xs

/-- The overlap width of a head with its neighbour of the next slot (R65). -/
def overlapWidth (lower upper : AssignHead) : Nat := lower.first + 1024 - upper.first

/-- What lies over each nozzle of a head, given its neighbours (R120, R121). -/
def partnersOf (left : Option AssignHead) (own : AssignHead) (right : Option AssignHead) :
    List Partner :=
  let low := match left with
    | some a =>
      let w := overlapWidth a own
      partnersFrom (fun j e => .left j w a.takesPart e) 0 (a.entries.drop (1024 - w))
    | none => []
  let high := match right with
    | some b =>
      let w := overlapWidth own b
      partnersFrom (fun j e => .right j w b.takesPart e) 0 (b.entries.take w)
    | none => []
  low ++ List.replicate (1024 - low.length - high.length) .sole ++ high

/-- The levels of a stored part at the 1,024 columns from a column on; a column the part was not written
for reads as level 0, and so does every column of a BLANK part (R5). -/
def partLevels (part : Option PlanePart) (first : Nat) : List Level :=
  let vs := match part with
    | some p => List.replicate (p.first - first) Level.l0 ++ p.levels.drop (first - p.first)
    | none => []
  vs.take 1024 ++ List.replicate (1024 - vs.length) .l0

/-- The shares of the heads of a bar, in slot order. -/
def shares (f : BarFields) (row : Nat) (part : Option PlanePart) :
    Option AssignHead → List AssignHead → List (AssignHead × HeadShare)
  | _, [] => []
  | left, h :: hs =>
    (h, headShare f row h.first h.takesPart h.entries (partnersOf left h hs.head?)
      (partLevels part h.first)) :: shares f row part (some h) hs

/-! ### The assignment of a page row at a bar (R82, R117, R134) -/

/-- Whether a head takes part in the assignment of a page row: ACTIVE and holding a head load begun for
that row (R82). -/
def Lane.takesPart (ln : Lane) (page row : Nat) : Bool :=
  ln.head == .active &&
    match ln.load with
    | some ld => ld.row == .page page row
    | none => false

/-- The heads of a bar as an assignment finds them. -/
def State.assignHeads (s : State) (b : BarId) (v : View) (page row : Nat) : List AssignHead :=
  (slotOrder s.assigns b).map fun hc =>
    ⟨hc.1, hc.2, (s.lane hc.1).takesPart page row, s.viewNozzles v hc.1⟩

/-- The accumulators an assignment leaves, in the table's one shared copy (R127). -/
def setAccs (xs : List Nozzle) (accs : List Nat) : List Nozzle :=
  List.zipWith (fun x a => { x with acc := a }) xs accs

/-- One head that takes part receives its share: levels and marks, and the next stage of its load (a
BLANK part needs no read, R82). -/
def Lane.receive (ln : Lane) (share : HeadShare) (blank : Bool) : Lane :=
  { ln with
    nozzles := setAccs ln.nozzles share.accs
    load := ln.load.map fun ld =>
      { ld with drops := share.drops, stage := if blank then .transfer else .readWait } }

/-- Every head that takes part receives its share. -/
def State.deliver (s : State) (blank : Bool) : List (AssignHead × HeadShare) → State
  | [] => s
  | (h, share) :: rest =>
    ((if h.takesPart then s.modLane h.lane (·.receive share blank) else s)).deliver blank rest

/-- The Drop Assembler assigns the row a bar's load waits for: levels to the heads that take part, tallies
to the page or, while Suppress is set, kept with the load (R117, R134). -/
def State.assignPage (s : State) (b : BarId) (pl : PageLoad) (part : PartStatus) : State :=
  let stored := match part with
    | .present p => some p
    | _ => none
  let out := shares pl.fields pl.row stored none (s.assignHeads b pl.view pl.page pl.row)
  let lost := (out.map (·.2.lost)).sum
  let sub := (out.map (·.2.substituted)).sum
  let added := !s.queue.suppress
  let s := s.deliver (part == .blank) out
  let s := s.modBar b fun x =>
    { x with next := .page { pl with waiting := false, lost := lost, substituted := sub, added := added } }
  if added then s.modPage pl.page (·.addTallies lost sub) else s

/-- A row that has become complete is handed to a bar whose load waits for it (R4, R82). -/
def State.handTo (s : State) (page row : Nat) (b : BarId) : State :=
  match (s.bar b).next, s.row page row with
  | .page pl, some r =>
    if pl.page = page ∧ pl.row = row ∧ pl.waiting ∧ r.isComplete then
      match r.parts.get b with
      | some x => s.assignPage b pl x.status
      | none => s
    else s
  | _, _ => s

/-- A row that has become complete is handed to every load that waits for it (R4). -/
def State.handRow (s : State) (page row : Nat) : State :=
  barIds.foldl (fun s b => s.handTo page row b) s

/-! ### Pattern rows and gap rows (R136, R137) -/

/-- The levels of a pattern or gap row at a head, with keep-wet marks (R136, R137). -/
def rowDrops (kind : RowKind) (f : BarFields) : List Nozzle → List Level → List Drop
  | x :: xs, v :: vs =>
    keepWetDrop kind f x (if x.state.unfit then .l0 else v) :: rowDrops kind f xs vs
  | _, _ => []

/-! ### Idle counts (R129, R130) -/

/-- Whether a nozzle emits under a fire command (R129). -/
def Drop.emits (m : FireMode) (d : Drop) : Bool :=
  match m with
  | .full => d.level != .l0 || d.mark == .tickle
  | .keepWetOnly => d.mark != .plain

/-- The idle count of one nozzle at a tick (R129). -/
def Nozzle.tick (limit : Nat) (emitted : Bool) (x : Nozzle) : Nozzle :=
  match keepWetLimit limit x.state with
  | some k => { x with idle := if emitted then 0 else min (x.idle + 1) k }
  | none => x

/-- The idle counts of a head at a tick at which it emits nothing. -/
def idleQuiet (limit : Nat) (xs : List Nozzle) : List Nozzle := xs.map (Nozzle.tick limit false)

/-- The idle counts of a head at a tick at which it is sent a fire command. -/
def idleFired (limit : Nat) (m : FireMode) : List Nozzle → List Drop → List Nozzle
  | x :: xs, d :: ds => x.tick limit (d.emits m) :: idleFired limit m xs ds
  | xs, [] => idleQuiet limit xs
  | [], _ => []

end Sys2Proof.Machine
end

