-- ==== Sys2Proof/Machine/Heads.lean ====
section
/-! DEFINITION. The head lanes: entering and leaving ACTIVE, drive, head faults, probes, exchanges, the row
store arbiter, and the events of lanes and timers (chapters 04 and 07). -/

namespace Sys2Proof.Machine

/-! ### Drive (R142 to R144) -/

/-- A ramp starts toward the target if the level differs from it and the step is not 0 (R142). -/
def Lane.startRamp (ln : Lane) : Lane :=
  { ln with slewTimer := if ln.step ≠ 0 ∧ ln.drive ≠ ln.target then some ln.interval else none }

/-- The drive of a head that enters ACTIVE (R144): from 0, at its target at once if the step is 0, else on
a ramp. -/
def Lane.enterDrive (ln : Lane) : Lane :=
  if ln.step = 0 then { ln with drive := ln.target, slewTimer := none }
  else { ln with drive := 0 }.startRamp

/-- One slew step: the level moves toward the target by the step or the distance left (R142). -/
def Lane.slew (ln : Lane) : Lane :=
  { ln with
    drive := if ln.drive < ln.target then ln.drive + min ln.step (ln.target - ln.drive)
      else ln.drive - min ln.step (ln.drive - ln.target) }.startRamp

/-- DRVSET's drive fields on a head that is ACTIVE (R143). -/
def Lane.driveActive (ln : Lane) (target step : Nat) (interval : SlewInterval) : Lane :=
  let new := { ln with target := target, step := step, interval := interval }
  if ln.slewTimer.isSome then
    if step = 0 then { new with target := ln.drive, slewTimer := none }
    else if target = ln.drive then { new with slewTimer := none }
    else if interval = ln.interval then new
    else { new with slewTimer := some interval }
  else if step = 0 then { new with drive := target }
  else new.startRamp

/-- DRVSET's fields on a lane: outside ACTIVE they are taken without moving the level (R143). -/
def Lane.setDrive (ln : Lane) (target step : Nat) (interval : SlewInterval) (limit : Nat) : Lane :=
  if ln.head = .active then { ln.driveActive target step interval with limit := limit }
  else { ln with target := target, step := step, interval := interval, limit := limit }

/-! ### Entering and leaving ACTIVE (R74, R78) -/

/-- The idle count of a nozzle whose head enters ACTIVE (R74, R129). -/
def Nozzle.wet (x : Nozzle) : Nozzle := { x with idle := 0 }

/-- A lane whose head enters ACTIVE (R74, R144). -/
def Lane.enterActive (ln : Lane) : Lane :=
  { ln with
    head := .active
    warmTimer := none
    fire := none
    fireOpen := false
    load := none
    noReply := 0
    check := 0
    nozzles := ln.nozzles.map Nozzle.wet }.enterDrive

/-- A lane whose head leaves ACTIVE (R78). The state it goes to is the caller's. -/
def Lane.leaveActive (ln : Lane) : Lane :=
  { ln with drive := 0, slewTimer := none, fireOpen := false, load := none }

/-- Whether a load has received its assignment (R82). -/
def HeadLoad.assigned (ld : HeadLoad) : Bool := ld.stage != .waitingRow

/-- The page a lane's abandoned load counts missed-late for: one whose load had its assignment for a row
of a PRINTING page (R78). -/
def Page.countAbandoned (p : Page) (ld : Option HeadLoad) : Page :=
  match ld with
  | some ld =>
    match ld.row with
    | .page id _ => if p.id = id ∧ p.state = .printing ∧ ld.assigned then p.countLate else p
    | _ => p
  | none => p

/-- A head leaves ACTIVE for a state (R78). READY follows at the end of the event. -/
def State.leaveActive (s : State) (h : LaneId) (dest : HeadState) : State :=
  let s := s.setPages (s.queue.pages.map fun p => p.countAbandoned (s.lane h).load)
  s.modLane h fun ln => { ln.leaveActive with head := dest }

/-! ### Head faults (R146 to R148) -/

/-- Whether faults are taken in a head state (R147). -/
def HeadState.faultable : HeadState → Bool
  | .warming | .active => true
  | _ => false

/-- The head state, retry count and retry timer a fault gives (R148 step 4). -/
def Lane.retry (ln : Lane) : Lane :=
  if ln.retries < 3
  then { ln with head := .recovery, retries := ln.retries + 1, retryTimer := true }
  else { ln with head := .failed, retryTimer := false }

/-- HEADFAULT, and HEADFAILED for a head that is FAILED (R148 step 5). -/
def State.raiseFault (s : State) (h : LaneId) : State :=
  let s := s.raise .service .headfault
  if (s.lane h).head = .failed then s.raise .service .headfailed else s

/-- A head fault: taken in WARMING and ACTIVE, ignored in any other state (R147, R148). -/
def State.headFault (s : State) (h : LaneId) (f : HeadFault) : State :=
  if (s.lane h).head.faultable then
    let s := if (s.lane h).head = .active then s.leaveActive h .active else s
    let s := s.modLane h fun ln =>
      { ln with lastFault := some f, warmTimer := none, park := none }.retry
    let s := s.raiseFault h
    (s.endWait (.hdon h) .failed []).endWait (.hdpark h) .failed []
  else s

/-- The check of the temperature against the limit (R146). -/
def State.checkTemperature (s : State) (h : LaneId) : State :=
  if (s.lane h).limit ≤ (s.lane h).temperature then s.headFault h .overtemp else s

/-- A reported temperature is taken; above 127 it is 127 (R145). -/
def Lane.takeTemperature (ln : Lane) (t : Byte) : Lane := { ln with temperature := min 127 t.toNat }

/-! ### Probes (R71, R72, R149) -/

/-- A lane sends an identify: the exchange in progress is that of its latest identify (R70; log 16). -/
def Lane.identify (ln : Lane) : Lane :=
  { ln with exchange := some .identify, identifies := ln.identifies + 1 }

/-- The identify of a probe is sent when no exchange is in progress on the lane (R70, R149). -/
def State.sendIdentify (s : State) (h : LaneId) : State :=
  if (s.lane h).probe.isSome ∧ (s.lane h).exchange = none then
    (s.modLane h Lane.identify).send (.head h .identify)
  else s

/-- A probe begins on a lane (R71). -/
def State.beginProbe (s : State) (h : LaneId) (p : Probe) : State :=
  (s.modLane h fun ln => { ln with probe := some p }).sendIdentify h

/-- A LANESCAN in progress learns that a lane's probe has ended; it replies when every one has (R72). -/
def State.scanned (s : State) (h : LaneId) : State :=
  match (s.link .service).busy with
  | some (.scan tag running found) =>
    if running.get h then
      let running := running.set h false
      let found := found.set h ((s.lane h).head != .absent)
      if laneIds.any running.get then s.setBusy .service (some (.scan tag running found))
      else (s.setBusy .service none).reply .service tag .ok [laneSetByte found]
    else s
  | _ => s

/-- The state a plain probe gives the head; LANECHANGE where a known presence changed (R71, R92). -/
def State.endPlain (s : State) (h : LaneId) (known present : Bool) : State :=
  let before := (s.lane h).head != .absent
  let s := s.modLane h fun ln => { ln with head := if present then .off else .absent }
  if known ∧ before ≠ present then s.raise .service .lanechange else s

/-- The bound a temperature must lie below after a retry probe: the limit, or 5 °C less after OVERTEMP
(R149). -/
def Lane.retryBound (ln : Lane) : Int :=
  if ln.lastFault = some .overtemp then (ln.limit : Int) - 5 else ln.limit

/-- The outcome of a retry probe that drew an answer (R149). -/
def State.endRetry (s : State) (h : LaneId) (nozzles : Nat) : State :=
  if nozzles ≠ 1024 then
    (s.modLane h fun ln => { ln with head := .absent }).raise .service .lanechange
  else if ((s.lane h).temperature : Int) < (s.lane h).retryBound then
    s.modLane h fun ln => { ln with head := .warming, warmTimer := some ln.warmTime }
  else s.modLane h fun ln => { ln with retryTimer := true }

/-- A retry probe that drew no answer: a LANE_LOSS counted as a retry (R149). -/
def State.loseRetry (s : State) (h : LaneId) : State :=
  (s.modLane h fun ln => { ln with lastFault := some .laneLoss }.retry).raiseFault h

/-- A probe ends on a lane: neither probe nor identify is in progress. -/
def Lane.endProbe (ln : Lane) : Lane := { ln with probe := none, exchange := none }

/-- The probe that an answer to identify `i` of a lane ends: the one in progress, if `i` is its identify. An
answer to an identify whose exchange has ended ends none (R70, R92, R153; log 16). -/
def Lane.awaits (ln : Lane) (i : Nat) : Option Probe :=
  if ln.exchange = some .identify ∧ ln.identifies = i then ln.probe else none

/-- IDENTIFY_ANSWER: the answer to identify `i` of a lane; discarded if no probe awaits it (R70, R71, R145,
R149). -/
def State.identifyAnswer (s : State) (h : LaneId) (i nozzles : Nat) (t : Byte) : State :=
  match (s.lane h).awaits i with
  | some p =>
    let s := s.modLane h fun ln => (ln.takeTemperature t).endProbe
    let s := match p with
      | .plain known => s.endPlain h known (nozzles == 1024)
      | .retry => s.endRetry h nozzles
    s.scanned h
  | none => s

/-- IDENTIFY_TIMEOUT: 5 ms without an answer to the identify in progress (R71, R149). -/
def State.identifyTimeout (s : State) (h : LaneId) : State :=
  match (s.lane h).exchange, (s.lane h).probe with
  | some .identify, some p =>
    let s := s.modLane h Lane.endProbe
    let s := match p with
      | .plain known => s.endPlain h known false
      | .retry => s.loseRetry h
    s.scanned h
  | _, _ => s

/-! ### Timers (R74, R75, R77, R142, R149) -/

/-- WARM_TIMER_EXPIRY: the head enters ACTIVE, a waiting HDON replies OK (R74). -/
def State.warmExpiry (s : State) (h : LaneId) : State :=
  if (s.lane h).head = .warming ∧ (s.lane h).warmTimer.isSome then
    (s.modLane h Lane.enterActive).endWait (.hdon h) .ok []
  else s

/-- SETTLE_TIMER_EXPIRY: the head enters its settle target; at PARKED the event is raised and a waiting
HDPARK replies OK (R75, R77). -/
def State.settleExpiry (s : State) (h : LaneId) : State :=
  match (s.lane h).head, (s.lane h).settleTimer with
  | .settling .off, some _ => s.modLane h fun ln => { ln with head := .off, settleTimer := none }
  | .settling .parked, some _ =>
    ((s.modLane h fun ln => { ln with head := .parked, settleTimer := none }).raise .service
      .parked).endWait (.hdpark h) .ok []
  | _, _ => s

/-- RETRY_TIMER_EXPIRY: the lane begins a retry probe (R149). -/
def State.retryExpiry (s : State) (h : LaneId) : State :=
  if (s.lane h).head = .recovery ∧ (s.lane h).retryTimer then
    (s.modLane h fun ln => { ln with retryTimer := false }).beginProbe h .retry
  else s

/-- SLEW_TIMER_EXPIRY: the level moves one step (R142). -/
def State.slewExpiry (s : State) (h : LaneId) : State :=
  if (s.lane h).head = .active ∧ (s.lane h).slewTimer.isSome then s.modLane h Lane.slew else s

/-! ### The row store arbiter (R83) -/

/-- Whether a lane's load claims the row store. -/
def Lane.claimsRead (ln : Lane) : Bool :=
  match ln.load with
  | some ld => ld.stage == .readWait
  | none => false

/-- Whether a ROWPUT is in progress on the Image link. -/
def State.rowputInProgress (s : State) : Bool :=
  match (s.link .image).busy with
  | some (.rowput ..) => true
  | _ => false

/-- Put a lane's load at a stage. -/
def Lane.atStage (ln : Lane) (st : LoadStage) : Lane :=
  { ln with load := ln.load.map fun ld => { ld with stage := st } }

/-- Change the holder of the row store. -/
def State.setStore (s : State) (x : StoreAccess) : State := s.setRing { s.ring with store := x }

/-- ROW_STORE_GRANT: a free store is granted to the lowest waiting lane read, or else to the waiting
write (R83). -/
def State.grant (s : State) : State :=
  if s.ring.store = .free then
    match laneIds.find? fun h => (s.lane h).claimsRead with
    | some h => (s.modLane h (·.atStage .readRun)).setStore (.read h)
    | none => if s.rowputInProgress then s.setStore .write else s
  else s

/-- ROW_STORE_READ_DONE: the running read ends; its load moves to transfer, unless it was abandoned
(R82, R83). -/
def State.readDone (s : State) : State :=
  match s.ring.store with
  | .read h =>
    (s.modLane h fun ln =>
      match ln.load with
      | some ld => if ld.stage = .readRun then ln.atStage .transfer else ln
      | none => ln).setStore .free
  | _ => s

/-! ### The load exchange (R70, R84, R145) -/

/-- LOAD_SEND: a load that has its levels is sent under the next load number, with the drive level that
stands, when the lane is free (R70, R82, R144). -/
def State.loadSend (s : State) (h : LaneId) : State :=
  match (s.lane h).load with
  | some ld =>
    if ld.stage = .transfer ∧ (s.lane h).exchange = none ∧ (s.lane h).probe = none then
      let n := (s.lane h).number + 1
      let d := (s.lane h).drive
      (s.modLane h fun ln =>
        { ln with
          number := n
          exchange := some (.load n)
          load := some { ld with stage := .awaiting, number := n, drive := d } }).send
        (.head h (.load n d ld.drops))
    else s
  | none => s

/-- The load whose exchange ends goes to a stage; one that was abandoned is no longer in the latch. -/
def Lane.endExchange (ln : Lane) (st : LoadStage) : Lane :=
  { ln with
    exchange := none
    load := ln.load.map fun ld => if ld.stage = .awaiting then { ld with stage := st } else ld }

/-- The status of a load reply: the counts (R84). A head in RECOVERY ignores them (R150, log 18). -/
def Lane.countStatus (ln : Lane) (st : LoadStatus) : Lane :=
  if ln.head = .recovery then ln
  else
    match st with
    | .ok => { ln with noReply := 0, check := 0 }
    | .loadCheck => { ln with noReply := 0, check := min 3 (ln.check + 1) }
    | .driveFault => { ln with noReply := 0 }

/-- The status of a load reply: the head fault it brings (R84, R147). -/
def State.statusFault (s : State) (h : LaneId) (st : LoadStatus) : State :=
  match st with
  | .ok => s
  | .loadCheck => if (s.lane h).check = 3 then s.headFault h .laneError else s
  | .driveFault => s.headFault h .driveFault

/-- The stage a reply's status gives its load (R84). -/
def replyStage : LoadStatus → LoadStage
  | .ok => .complete
  | .loadCheck | .driveFault => .rejected

/-- LOAD_REPLY: a reply in time with the right load number gives its temperature, then its nozzle reports
as auto-marks, then its status (R84, R110, R145), then the lane sends the identify of a probe that waited (log 36). Any
other is discarded (R70). -/
def State.loadReply (s : State) (h : LaneId) (n : Byte) (st : LoadStatus) (t : Byte)
    (reports : List NozzleReport) : State :=
  if (s.lane h).exchange = some (.load n) then
    let s := s.modLane h fun ln => (ln.takeTemperature t).endExchange (replyStage st)
    let s := s.checkTemperature h
    let s := (reports.take 8).foldl (fun s r => s.autoMark h r) s
    let s := s.modLane h (·.countStatus st)
    (s.statusFault h st).sendIdentify h
  else s

/-- LOAD_REPLY_TIMEOUT: 5 ms without a reply to the load in progress (R84). -/
def State.loadTimeout (s : State) (h : LaneId) : State :=
  match (s.lane h).exchange with
  | some (.load _) =>
    let s := s.modLane h fun ln =>
      let ln := ln.endExchange .rejected
      if ln.head = .recovery then ln else { ln with noReply := min 3 (ln.noReply + 1) }
    let s := if (s.lane h).noReply = 3 then s.headFault h .laneLoss else s
    s.sendIdentify h
  | _ => s

/-- FIRE_COMPLETE: the report for the load in the FIRE latch closes the fire window; any other is
discarded (R85). -/
def State.fireComplete (s : State) (h : LaneId) (n : Byte) : State :=
  match (s.lane h).fire with
  | some ld =>
    if (s.lane h).fireOpen ∧ ld.number = n then s.modLane h fun ln => { ln with fireOpen := false }
    else s
  | none => s

end Sys2Proof.Machine
end

