-- ==== Sys2Proof/Machine/Bars.lean ====
section
/-! DEFINITION. The bar sequencers: aborts, check prints and gap plays at a bar, beginning loads, passing
rows, parks, the work of a line tick (chapters 02, 04, 08). -/

namespace Sys2Proof.Machine

/-! ### Aborts (R16, R35, R90, R107) -/

/-- A bar gives up the load of a page's row it has begun (R90). -/
def BarNext.dropPage (id : Nat) : BarNext → BarNext
  | .page pl => if pl.page = id then .idle else .page pl
  | n => n

/-- A lane empties its LOAD latch of a page's row (R90). -/
def Lane.dropPage (id : Nat) (ln : Lane) : Lane :=
  match ln.load with
  | some ld =>
    match ld.row with
    | .page i _ => if i = id then { ln with load := none } else ln
    | _ => ln
  | none => ln

/-- Every bar abandons every load it has begun for rows of a page; nothing is counted (R90). -/
def State.abandonPage (s : State) (id : Nat) : State :=
  let s := s.setBars (s.bars.map fun x => { x with next := x.next.dropPage id })
  s.setLanes (s.lanes.map (·.dropPage id))

/-- The dark-reported flag is clear when a bar's current page changes (R89). -/
def State.clearDark (s : State) (id : Nat) : State :=
  s.setBars (.ofFn fun b =>
    match s.currentPage b with
    | some p => if p.id = id then { s.bar b with darkReported := false } else s.bar b
    | none => s.bar b)

/-- A PRINTING page becomes ABORTED (R35). A waiting NZCOMMIT whose transition ends replies here (R107, R108), before
the reply of the request that aborts the page: the model's choice (log 36). -/
def State.abortPage (s : State) (id : Nat) (c : AbortCause) : State :=
  let s := s.clearDark id
  let s := s.modPage id fun p => { p with state := .aborted, cause := some c }
  let s := (s.abandonPage id).finishRows id
  ((s.endTransitionOf id).raise .image .pgabort).raise .motion .pgabort

/-! ### Check prints at a bar (R166, R168) -/

/-- Whether a check is WAITING or PLAYING at a bar. -/
def CheckBar.running (x : CheckBar) : Bool := x.outcome == .waiting || x.outcome == .playing

/-- Whether a record is that of the check a bar's slot names. A bar holds at most one check, so the bar's
running outcome singles the record out even where an id has come round again (log 33). -/
def CheckRec.runsAt (r : CheckRec) (b : BarId) (id : Nat) : Bool :=
  r.id == id &&
    match r.bars.get b with
    | some x => x.running
    | none => false

/-- Change a record's fields for one bar. -/
def CheckRec.modBar (r : CheckRec) (b : BarId) (f : CheckBar → CheckBar) : CheckRec :=
  { r with bars := r.bars.set b ((r.bars.get b).map f) }

/-- A record is ENDED when no bar of its set is WAITING or PLAYING (R166). -/
def CheckRec.close (r : CheckRec) : CheckRec :=
  { r with
    ended := r.bars.toList.all fun
      | some x => !x.running
      | none => true }

/-- Change the record of the check a bar's slot names. -/
def State.modCheck (s : State) (b : BarId) (id : Nat) (f : CheckRec → CheckRec) : State :=
  s.setLibrary { s.library with
    checks := s.library.checks.map fun r => if r.runsAt b id then f r else r }

/-- An outcome as sent (R180). -/
def outcomeCode : CheckOutcome → Nat
  | .waiting => 0 | .playing => 1 | .whole => 2 | .truncated => 3

/-- A check bar block (R180). The line record bytes of an absent line record are a free value (log 11). Bits 7..1 of
byte 1, which R180 does not list, are sent as 0: the model's choice (log 35). -/
def checkBlock (free : Line) (x : CheckBar) : List Byte :=
  match x.line with
  | some l => [be8 (outcomeCode x.outcome), 1] ++ be32 l.toNat ++ be16 x.unprinted
  | none => [be8 (outcomeCode x.outcome), 0] ++ be32 free.toNat ++ be16 x.unprinted

/-- The check bar blocks of the bars of a check's set, in bar order; bar n draws free value base + n. -/
def checkBlocks (base : Nat) (r : CheckRec) : List Byte :=
  barIds.flatMap fun b =>
    match r.bars.get b with
    | some x => checkBlock (Config.freeWord (base + barNumber b)) x
    | none => []

/-- The bar set of a check. -/
def CheckRec.barSet (r : CheckRec) : PerBar Bool := r.bars.map Option.isSome

/-- The status of a waiting CHKPRINT's reply (R168). -/
def CheckRec.status (r : CheckRec) : Status :=
  if r.bars.toList.all (fun
    | some x => x.outcome == .whole
    | none => true) then .ok else .failed

/-- An ended check raises CHECKDONE and answers a waiting CHKPRINT (R168). -/
def State.checkDone (s : State) (r : CheckRec) : State :=
  let payload := be8 r.id :: checkBlocks s.fresh r
  let s := (s.setFresh (s.fresh + 4)).raise .service .checkdone
  s.endWait (.chkprint r.id r.barSet) r.status payload

/-- The play of a check ends at a bar, WHOLE or TRUNCATED (R161, R164, R166). -/
def State.endCheck (s : State) (b : BarId) (o : CheckOutcome) : State :=
  match (s.bar b).checkSlot with
  | some (.playing id n) =>
    let s := s.modBar b fun x => { x with checkSlot := none }
    match s.library.checks.find? (·.runsAt b id) with
    | some r =>
      let r' := (r.modBar b fun x => { x with outcome := o, unprinted := n }).close
      let s := s.modCheck b id fun _ => r'
      if r'.ended then s.checkDone r' else s
    | none => s
  | _ => s

/-! ### Gap plays (R161 to R164) -/

/-- The row count of a pattern. -/
def State.patternRows (s : State) (n : Name) : Nat :=
  match s.pattern n with
  | some e => e.rows
  | none => 0

/-- A gap play that is PLAYING is truncated: the rows left are counted, a check ends TRUNCATED (R164). -/
def State.truncatePlay (s : State) (b : BarId) : State :=
  match (s.bar b).gapPlay with
  | none => s
  | some g =>
    let s := s.setLibrary { s.library with
      truncated := satAdd max16 s.library.truncated (s.patternRows g.name - g.next) }
    let s := s.modBar b fun x => { x with gapPlay := none }
    if g.source = .check then s.endCheck b .truncated else s

/-- A WAITING check starts at a bar whose gap play is IDLE (R163 case 3). -/
def State.startCheck (s : State) (b : BarId) (id : Nat) : State :=
  match s.library.checks.find? (·.runsAt b id) with
  | some r =>
    let s := s.modCheck b id fun r => r.modBar b fun x => { x with outcome := .playing }
    s.modBar b fun x =>
      { x with checkSlot := some (.playing id 0), gapPlay := some ⟨r.name, .check, 0, .check⟩ }
  | none => s

/-! ### Beginning loads (R79, R81, R105, R106, R163) -/

/-- The row of a page that a bar passes at a line, or loads one line earlier, by R32 and R79: line less
trigger line less offset, modulo 2^32, when less than the row count. -/
def Page.rowAt (p : Page) (b : BarId) (offset : Nat) (line : Line) : Option Nat :=
  match p.trigger, p.progress.get b with
  | some t, some _ =>
    let r := (line - t - BitVec.ofNat 32 offset).toNat
    if p.state = .printing ∧ r < p.rowCount then some r else none
  | _, _ => none

/-- The page row a bar has at a line. -/
def State.pageRow (s : State) (b : BarId) (line : Line) : Option (Nat × Nat) :=
  s.queue.pages.findSome? fun p => (p.rowAt b (s.bar b).offset line).map fun r => (p.id, r)

/-- The page row a bar passes at the tick to the present line (R32): L − T − 1 − D. -/
def State.passedRow (s : State) (b : BarId) : Option (Nat × Nat) := s.pageRow b (s.position.line - 1)

/-- The page row a bar will fire at the next tick (R79): L − T − D. -/
def State.comingRow (s : State) (b : BarId) : Option (Nat × Nat) := s.pageRow b s.position.line

/-- A new load begins at each ACTIVE head of a bar; its LOAD latch is emptied for it (R81). -/
def State.beginHeads (s : State) (b : BarId) (mk : LaneId → HeadLoad) : State :=
  (s.activeLanes b).foldl (fun s h => s.modLane h fun ln => { ln with load := some (mk h) }) s

/-- A head load that waits for its row. -/
def pageHeadLoad (page row : Nat) : HeadLoad := ⟨.page page row, .waitingRow, 0, 0, []⟩

/-- A bar begins the load of a page row: a gap play is ended by it, the bar switches if the transition names
the row, and the row is assigned at once if it is complete (R81, R82, R106, R163 case 1). -/
def State.beginPage (s : State) (b : BarId) (page row : Nat) : State :=
  let s := s.truncatePlay b
  let s := s.switchBar b page row
  let view := s.barView b
  let s := s.modBar b fun x =>
    { x with next := .page ⟨page, row, view, x.inEffect, true, 0, 0, false⟩ }
  let s := s.beginHeads b fun _ => pageHeadLoad page row
  s.handTo page row b

/-- The levels of a gap row. -/
def gapLevels : List Level := List.replicate 1024 .l0

/-- A bar begins the load of a pattern row or gap row: assigned at once, no read (R82, R136, R137). -/
def State.beginPlain (s : State) (b : BarId) (next : BarNext) (row : LoadRow) (kind : RowKind)
    (levels : List Level) : State :=
  let f := (s.bar b).inEffect
  let view := s.barView b
  let loads := s.beginHeads b fun h =>
    ⟨row, .transfer, 0, 0, rowDrops kind f (s.viewNozzles view h) levels⟩
  loads.modBar b fun x => { x with next := next }

/-- The row kind of a pattern's rows (R119). -/
def PatternKind.rowKind : PatternKind → RowKind
  | .spit => .spit
  | .check => .check

/-- A bar begins the load of the next row of its gap play (R163 case 2). -/
def State.beginPattern (s : State) (b : BarId) (g : GapPlay) : State :=
  let start := match s.pattern g.name with
    | some e => e.start
    | none => 0
  s.beginPlain b .pattern .pattern g.kind.rowKind (s.patternRow (start + g.next))

/-- A bar begins the load of a gap row (R163 case 4). -/
def State.beginGap (s : State) (b : BarId) : State := s.beginPlain b .gap .gap .gap gapLevels

/-- Step 3 of a tick: the bar chooses the content of its next load and begins it (R163). -/
def State.beginLoads (s : State) (b : BarId) : State :=
  match s.comingRow b with
  | some (page, row) => s.beginPage b page row
  | none =>
    match (s.bar b).gapPlay, (s.bar b).checkSlot with
    | some g, _ => s.beginPattern b g
    | none, some (.waiting id) =>
      let s := s.startCheck b id
      match (s.bar b).gapPlay with
      | some g => s.beginPattern b g
      | none => s.beginGap b
    | none, _ => s.beginGap b

/-! ### Firing and misses at a head (R85 to R87, R129, R130, R165) -/

/-- What a head does with the row of a tick (R85). -/
inductive HeadOutcome where
  | nothing | keepWet | overspeed | late | fired
  deriving DecidableEq, Repr

/-- The first case of R85 that holds. `suppressed` is a suppressed page or check row; `waiting` an
underrun. -/
def headOutcome (suppressed waiting : Bool) (ln : Lane) : HeadOutcome :=
  match ln.load with
  | none => .nothing
  | some ld =>
    if suppressed then (if ld.stage = .complete ∧ ¬ln.fireOpen then .keepWet else .nothing)
    else if waiting then .nothing
    else if ln.fireOpen then .overspeed
    else if ld.stage ≠ .complete then .late
    else .fired

/-- The fire command an outcome sends. -/
def HeadOutcome.mode : HeadOutcome → Option FireMode
  | .keepWet => some .keepWetOnly
  | .fired => some .full
  | _ => none

/-- The drops of a load, none for an empty latch. -/
def loadDrops : Option HeadLoad → List Drop
  | some ld => ld.drops
  | none => []

/-- The idle counts of a head at the tick of a row: frozen at a CHECK row (R129, R130). -/
def Lane.idleAt (ln : Lane) (kind : RowKind) (limit : Nat) (o : HeadOutcome) : List Nozzle :=
  if kind = .check then ln.nozzles
  else
    match o.mode with
    | some m => idleFired limit m ln.nozzles (loadDrops ln.load)
    | none => idleQuiet limit ln.nozzles

/-- A lane after its head has fired or missed the row of a tick: a fired load moves to the FIRE latch and
opens the window, any other load is gone (R85 to R88). -/
def Lane.tick (ln : Lane) (kind : RowKind) (limit : Nat) (o : HeadOutcome) : Lane :=
  { ln with
    nozzles := ln.idleAt kind limit o
    fire := if o.mode.isSome then ln.load else ln.fire
    fireOpen := ln.fireOpen || o.mode.isSome
    load := none }

/-- The number of a load, for its fire command. -/
def loadNumber : Option HeadLoad → Byte
  | some ld => ld.number
  | none => 0

/-- An overspeed miss (R61, R86). -/
def State.countOverspeed (s : State) (page : Option Nat) : State :=
  let s := s.setPosition { s.position with overspeed := satAdd max16 s.position.overspeed 1 }
  let s := s.raise .motion .overspeed
  match page with
  | some id => s.modPage id Page.countOverspeed
  | none => s

/-- One head of a bar at step 1 of a tick (R85). -/
def State.tickHead (s : State) (kind : RowKind) (limit : Nat) (page : Option Nat)
    (suppressed waiting : Bool) (h : LaneId) : State :=
  let ln := s.lane h
  let o := headOutcome suppressed waiting ln
  let s := s.modLane h (·.tick kind limit o)
  match o with
  | .nothing => s
  | .keepWet => s.send (.head h (.fire (loadNumber ln.load) .keepWetOnly))
  | .fired => s.send (.head h (.fire (loadNumber ln.load) .full))
  | .overspeed => s.countOverspeed page
  | .late =>
    match page with
    | some id => s.modPage id Page.countLate
    | none => s

/-- The ACTIVE heads of a bar at step 1 of a tick. That their commands are recorded in lane order is the model's
choice (log 36). -/
def State.tickHeads (s : State) (b : BarId) (kind : RowKind) (page : Option Nat)
    (suppressed waiting : Bool) : State :=
  (s.activeLanes b).foldl
    (fun s h => s.tickHead kind (s.bar b).inEffect.limit page suppressed waiting h) s

/-! ### Passing a page row (R33, R34, R38, R42, R88, R89, R134, R162) -/

/-- The bar's record of the load of the row it passes. -/
def State.loadOf (s : State) (b : BarId) (page row : Nat) : PageLoad :=
  let fresh : PageLoad :=
    ⟨page, row, .table, (s.bar b).inEffect, !s.rowComplete page row, 0, 0, false⟩
  match (s.bar b).next with
  | .page pl => if pl.page = page ∧ pl.row = row then pl else fresh
  | _ => fresh

/-- The pass settles the tallies of the row against the Suppress flag (R134). -/
def State.settleTallies (s : State) (pl : PageLoad) (suppressed : Bool) : State :=
  if suppressed then
    if pl.added then s.modPage pl.page (·.takeTallies pl.lost pl.substituted) else s
  else if pl.added || pl.waiting then s
  else s.modPage pl.page (·.addTallies pl.lost pl.substituted)

/-- A page whose every bar has passed its last row becomes DONE (R34). -/
def Page.whole (p : Page) : Bool :=
  p.progress.toList.all fun
    | some n => n == p.rowCount
    | none => true

/-- A PRINTING page that is whole becomes DONE and raises PGDONE on both links (R34). -/
def State.checkDonePage (s : State) (id : Nat) : State :=
  match s.page id with
  | some p =>
    if p.state = .printing ∧ p.whole then
      ((s.modPage id fun p => { p with state := .done }).raise .image .pgdone).raise .motion .pgdone
    else s
  | none => s

/-- The kind of a pattern, from the directory. -/
def State.patternKind (s : State) (n : Name) : PatternKind :=
  match s.pattern n with
  | some e => e.kind
  | none => .spit

/-- The pass of a page's last row at a bar: the current page changes, and the page's gap pattern starts
(R89, R162). -/
def State.lastPass (s : State) (b : BarId) (gap : Option Name) : State :=
  let s := s.modBar b fun x => { x with darkReported := false }
  match gap with
  | some n => s.modBar b fun x => { x with gapPlay := some ⟨n, s.patternKind n, 0, .page⟩ }
  | none => s

/-- A pass takes place: progress, passed flag and release, the last row's effects (R15, R33, R34). -/
def State.completePass (s : State) (b : BarId) (id row : Nat) : State :=
  let s := s.modPage id fun p => { p with progress := p.progress.set b (some (row + 1)) }
  let s := s.passRow id row b
  match s.page id with
  | some p => if row + 1 = p.rowCount then (s.lastPass b p.gap).checkDonePage id else s
  | none => s

/-- A bar dark pass (R89). -/
def State.darkPass (s : State) (b : BarId) (id : Nat) : State :=
  let s := s.modPage id fun p => { p with degraded := true }
  if (s.bar b).darkReported then s
  else (s.modBar b fun x => { x with darkReported := true }).raise .service .bardark

/-- An underrun at a bar: UNDERRUN, then the policy in effect (R38, R88). -/
def State.underrun (s : State) (b : BarId) (id row : Nat) : State :=
  let s := s.raise .image .underrun
  match (s.bar b).inEffect.policy with
  | .blank => (s.modPage id Page.countUnderrun).completePass b id row
  | .halt => s.abortPage id .underrunHalt

/-- The pass of a page row at a bar (R33, R42, R85, R88, R89). -/
def State.passPage (s : State) (b : BarId) (id row : Nat) : State :=
  let suppressed := s.queue.suppress
  let pl := s.loadOf b id row
  let dark := (s.activeLanes b).isEmpty
  let s := s.tickHeads b .page (some id) suppressed pl.waiting
  let s := s.modBar b fun x => { x with next := .idle }
  if suppressed then
    ((s.settleTallies pl true).modPage id Page.countSuppressed).completePass b id row
  else
    let s := if dark then s.darkPass b id else s
    if pl.waiting then s.underrun b id row
    else (s.settleTallies pl false).completePass b id row

/-! ### Gap actions (R161, R165) -/

/-- Whether any ACTIVE head of a bar fires its load under FULL at this tick. -/
def State.firesFull (s : State) (b : BarId) (suppressed : Bool) : Bool :=
  (s.activeLanes b).any fun h => headOutcome suppressed false (s.lane h) == .fired

/-- The line record of a check whose row 0 is played (R166). -/
def State.recordLine (s : State) (b : BarId) (g : GapPlay) : State :=
  match g.source, g.next, (s.bar b).checkSlot with
  | .check, 0, some (.playing id _) =>
    s.modCheck b id fun r => r.modBar b fun x => { x with line := some s.position.line }
  | _, _, _ => s

/-- A row of a check that no head fired under FULL is counted (R161). -/
def CheckSlot.countUnprinted : CheckSlot → CheckSlot
  | .playing id n => .playing id (n + 1)
  | x => x

/-- The play of a pattern row at a bar (R161, R165). The heads act first, so a CHKPRINT that the row ends replies after
their fire commands: the model's choice (log 36). -/
def State.playPattern (s : State) (b : BarId) (g : GapPlay) : State :=
  let suppressed := s.queue.suppress && g.kind == .check
  let printed := s.firesFull b suppressed
  let s := s.tickHeads b g.kind.rowKind none suppressed false
  let s := s.recordLine b g
  let s := if g.source = .check ∧ ¬printed
    then s.modBar b fun x => { x with checkSlot := x.checkSlot.map CheckSlot.countUnprinted } else s
  if g.next + 1 < s.patternRows g.name then
    s.modBar b fun x => { x with gapPlay := some { g with next := g.next + 1 } }
  else
    let s := s.modBar b fun x => { x with gapPlay := none }
    if g.source = .check then s.endCheck b .whole else s

/-- A tick at which a bar passes no page row (R79): its pattern row, its gap row, or, where the load it had
begun was abandoned (R90), nothing at any head. -/
def State.gapAction (s : State) (b : BarId) : State :=
  let s' := match (s.bar b).next, (s.bar b).gapPlay with
    | .pattern, some g => s.playPattern b g
    | .gap, _ => s.tickHeads b .gap none false false
    | _, _ => s.tickHeads b .gap none false true
  s'.modBar b fun x => { x with next := .idle }

/-! ### Parks (R77) -/

/-- A head's pending park is taken if it is due (R77). -/
def State.takePark (s : State) (b : BarId) (passed : Bool) (h : LaneId) : State :=
  match (s.lane h).park with
  | some now =>
    if (s.lane h).head = .active ∧ (now || (!passed && (s.currentPage b).isNone)) then
      (s.leaveActive h (.settling .parked)).modLane h fun ln =>
        { ln with park := none, settleTimer := some ln.warmTime }
    else s
  | none => s

/-- Step 2 of a tick: every pending park of the bar that is due (R80). -/
def State.takeParks (s : State) (b : BarId) (passed : Bool) : State :=
  (s.lanesOf b).foldl (fun s h => s.takePark b passed h) s

/-! ### The work of a tick (R52, R57, R80) -/

/-- Steps 1 and 2 of a tick at a bar: the fields are copied, the row is passed or the gap played, then
parks are taken (R68, R80). -/
def State.passWork (s : State) (b : BarId) : State :=
  let s := s.modBar b fun x => { x with inEffect := x.asSet }
  match s.passedRow b with
  | some (id, row) => (s.passPage b id row).takeParks b true
  | none => (s.gapAction b).takeParks b false

/-- A piece of a bar's work at a tick: steps 1 and 2, or step 3 (R80). -/
inductive TickTask where
  | pass (b : BarId)
  | loads (b : BarId)
  deriving DecidableEq, Repr

/-- One piece of work. -/
def runTickTask (t : TickTask) (s : State) : State :=
  match t with
  | .pass b => s.passWork b
  | .loads b => s.beginLoads b

/-- The work of the four bars, each in its sequence. -/
def tickWork : List (List TickTask) := barIds.map fun b => [.pass b, .loads b]

/-- Whether the automatic pitch generates a trigger at the present line (R57). -/
def Position.autoDue (p : Position) : Bool :=
  p.source == .auto && p.autoPitch != 0 &&
    match p.lastTrigger with
    | some t => (p.line - t).toNat == p.autoPitch
    | none => false

/-- A line tick is delivered: the line counter advances, the four bars do their work in a free order, and
the automatic pitch compares (R52, R57, R80; log 2, 4). -/
def State.lineTick (s : State) : State :=
  let s := s.setPosition { s.position with line := s.position.line + 1, tickRaised := false }
  let s := runTasks runTickTask 8 tickWork s
  s.setPosition { s.position with autoRaised := s.position.autoDue }

end Sys2Proof.Machine
end

