-- ==== Sys2Proof/Machine/Triggers.lean ====
section
/-! DEFINITION. Trigger qualification (R28 to R30), the trigger sources (R54 to R57) and the encoder
(R48 to R52). -/

namespace Sys2Proof.Machine

/-! ### Qualification (R28) -/

/-- What qualification finds a trigger to be (R28). -/
inductive TriggerOutcome where
  | taken | early | empty
  deriving DecidableEq, Repr

/-- The first case of R28 that holds. -/
def State.judge (s : State) : TriggerOutcome :=
  match s.armedPage with
  | none => .empty
  | some _ =>
    match s.position.lastTrigger with
    | some t =>
      if (s.position.line - t).toNat < max s.position.lastRows s.position.holdoff then .early else .taken
    | none => .taken

/-- An empty trigger is counted; one from the automatic pitch moves the last trigger line on by the auto
pitch and lowers its row count (R28, R30). -/
def State.emptyTrigger (s : State) (auto : Bool) : State :=
  let p := { s.position with empty := satAdd max16 s.position.empty 1 }
  let p := if auto then
      { p with
        lastTrigger := p.lastTrigger.map fun t => t + BitVec.ofNat 32 p.autoPitch
        lastRows := p.lastRows - p.autoPitch }
    else p
  (s.setPosition p).raise .motion .trigskip

/-- An early trigger is counted and ignored (R28). -/
def State.earlyTrigger (s : State) : State :=
  (s.setPosition { s.position with early := satAdd max16 s.position.early 1 }).raise .motion .trigskip

/-- A bar's part in a taken trigger: with offset 0 and in the page's set, it begins the load of row 0
(R29, R81). -/
def State.triggerBar (page : Nat) (b : BarId) (s : State) : State := s.beginPage b page 0

/-- The bars that begin the load of row 0 at the trigger. -/
def State.triggerBars (s : State) (p : Page) : List BarId :=
  barIds.filter fun b => p.hasBar b && (s.bar b).offset == 0

/-- A taken trigger: the ARMED page is PRINTING with trigger line L, the oldest DECLARED page is ARMED, and
the bars with offset 0 begin row 0, in a free order (R29; log 2). -/
def State.takeTrigger (s : State) (p : Page) : State :=
  let line := s.position.line
  let s := s.setPosition { s.position with
    taken := satAdd max16 s.position.taken 1
    lastTrigger := some line
    lastRows := p.rowCount }
  let s := s.modPage p.id fun p => { p with state := .printing, trigger := some line }
  let s := s.setPages (armOldest s.queue.pages)
  runTasks (State.triggerBar p.id) 4 ((s.triggerBars p).map fun b => [b]) s

/-- A trigger offered to the Page Queue (R28). -/
def State.offer (s : State) (auto : Bool) : State :=
  match s.armedPage, s.judge with
  | some p, .taken => s.takeTrigger p
  | _, .early => s.earlyTrigger
  | _, _ => s.emptyTrigger auto

/-! ### Sources (R54, R55, R57) -/

/-- PDET_RISING_EDGE: offered under source PDET, ignored otherwise (R54, R55). -/
def State.pdetEdge (s : State) : State := if s.position.source = .pdet then s.offer false else s

/-- AUTOMATIC_TRIGGER: the automatic trigger the tick generated is offered (R57). -/
def State.autoTrigger (s : State) : State :=
  (s.setPosition { s.position with autoRaised := false }).offer true

/-! ### The encoder (R48 to R52) -/

/-- What the quadrature decoder makes of a new pair of levels (R48). -/
inductive EdgeKind where
  | noCount | aLeading | bLeading
  deriving DecidableEq, Repr

/-- The place of a pair in the A-leading sequence (0,0), (1,0), (1,1), (0,1). -/
def pairPlace : Bool → Bool → Nat
  | false, false => 0 | true, false => 1 | true, true => 2 | false, true => 3

/-- One step on in the sequence is A-leading, one step back B-leading; both inputs changed, or none, is no
count (R48). -/
def edgeKind (oldA oldB a b : Bool) : EdgeKind :=
  match (pairPlace a b + 4 - pairPlace oldA oldB) % 4 with
  | 1 => .aLeading
  | 3 => .bLeading
  | _ => .noCount

/-- A forward edge (R50, R52). -/
def Position.forward (p : Position) : Position :=
  if p.depth = 0 then
    let acc := p.accumulator + 256
    { p with
      encoder := p.encoder + 1
      highWater := p.highWater + 1
      accumulator := if p.pitch ≤ acc then acc - p.pitch else acc
      tickRaised := decide (p.pitch ≤ acc) }
  else { p with encoder := p.encoder + 1, depth := p.depth - 1 }

/-- A reverse edge (R51). -/
def Position.reverse (p : Position) : Position :=
  let p := { p with encoder := p.encoder - 1, reverseTotal := p.reverseTotal + 1 }
  if p.depth = BitVec.allOnes 32 then { p with highWater := p.highWater - 1 }
  else { p with depth := p.depth + 1 }

/-- A new pair of encoder levels is taken (R48, R49). -/
def Position.edge (p : Position) (a b : Bool) : Position :=
  let q := { p with encA := a, encB := b }
  match edgeKind p.encA p.encB a b, p.swapped with
  | .noCount, _ => q
  | .aLeading, false | .bLeading, true => q.forward
  | .aLeading, true | .bLeading, false => q.reverse

/-- ENCODER_EDGE: one edge; a line tick it raises is delivered by LINE_TICK, or before any other command
but POWER_ON, which drops it, is taken (R48, R52; log 3, 24). -/
def State.encoderEdge (s : State) (a b : Bool) : State := s.setPosition (s.position.edge a b)

end Sys2Proof.Machine
end

