-- ==== Sys2Proof/Machine/HeadRequests.lean ====
section
/-! DEFINITION. The Service link's requests over geometry, bars and heads: GEOSET, BARSET, HDON, HDOFF,
HDPARK, HDREIN, LANESCAN, DRVSET (chapters 04 and 07). -/

namespace Sys2Proof.Machine

/-! ### GEOSET (R66, R67) -/

/-- The new assignments, if every lane entry is in range (R66 check 2). -/
def allLanes (x : PerLane (Option (Option Assign))) : Option (PerLane (Option Assign)) :=
  if laneIds.all fun h => (x.get h).isSome then some (x.map fun y => y.getD none) else none

/-- The new bar entries, if every one is in range (R66 check 2). -/
def allBars (x : PerBar (Option (Bool × Nat))) : Option (PerBar (Bool × Nat)) :=
  if barIds.all fun b => (x.get b).isSome then some (x.map fun y => y.getD (false, 0)) else none

/-- How many lanes are assigned to a bar. -/
def laneCount (asg : PerLane (Option Assign)) (b : BarId) : Nat :=
  laneIds.countP fun h =>
    match asg.get h with
    | some a => a.bar == b
    | none => false

/-- Each first column from the one before it: 960 to 1024 further (R65). -/
def overlapsFit : List Nat → Bool
  | c :: d :: cs => decide (c + 960 ≤ d) && decide (d ≤ c + 1024) && overlapsFit (d :: cs)
  | _ => true

/-- The slots of a bar run from 0 without holes or repeats, and its overlaps fit (R65, R66 check 3). -/
def barFits (asg : PerLane (Option Assign)) (b : BarId) : Bool :=
  let n := laneCount asg b
  decide (n ≤ 4) && (List.range n).all (fun k => (slotLane asg b k).isSome) &&
    overlapsFit ((slotOrder asg b).map (·.2))

/-- Check 3 of R66. -/
def geometryFits (asg : PerLane (Option Assign)) (bars : PerBar (Bool × Nat)) : Bool :=
  barIds.all fun b => barFits asg b && (!(bars.get b).1 || decide (laneCount asg b ≠ 0))

/-- A head state that keeps an assigned lane's geometry from changing (R66 check 4). -/
def HeadState.holdsGeometry : HeadState → Bool
  | .warming | .active | .settling _ | .recovery => true
  | _ => false

/-- Check 4 of R66. -/
def State.geometryHeld (s : State) : Bool :=
  s.anyPrinting ||
    laneIds.any fun h => (s.lane h).assign.isSome && (s.lane h).head.holdsGeometry

/-- An accepted GEOSET (R67). -/
def State.setGeometry (s : State) (asg : PerLane (Option Assign)) (bars : PerBar (Bool × Nat)) :
    State :=
  (s.setLanes (.ofFn fun h => { s.lane h with assign := asg.get h })).setBars
    (.ofFn fun b => { s.bar b with enabled := (bars.get b).1, offset := (bars.get b).2 })

/-- GEOSET: the checks of R66 in order, then R67. -/
def State.geoset (s : State) (l : LinkId) (tag : Byte) (payload : List Byte) : State :=
  if payload.length ≠ 44 then s.refuse l tag .badLength
  else
    match allLanes (laneEntries payload), allBars (barEntries payload) with
    | some asg, some bars =>
      if !geometryFits asg bars then s.refuse l tag .badField
      else if s.geometryHeld then s.refuse l tag .wrongState
      else (s.setGeometry asg bars).reply l tag .ok []
    | _, _ => s.refuse l tag .badField

/-! ### BARSET (R68) -/

/-- BARSET: the fields as set of one bar (R68). -/
def State.barset (s : State) (l : LinkId) (tag : Byte) (payload : List Byte) : State :=
  match payload with
  | [bar, policy, handover, wet, k1, k0] =>
    match barOf bar.toNat, barFieldsOf policy.toNat handover.toNat wet.toNat (u16 k1 k0) with
    | some b, some f => (s.modBar b fun x => { x with asSet := f }).reply l tag .ok []
    | _, _ => s.refuse l tag .badField
  | _ => s.refuse l tag .badLength

/-! ### HDON (R73) -/

/-- A request given WAIT is held in progress; given POST it replies OK at once (R175). -/
def State.hold (s : State) (l : LinkId) (tag : Byte) (wait : Bool) (op : WaitOp) : State :=
  if wait then s.setBusy l (some (.waiting tag op)) else s.reply l tag .ok []

/-- HDON on a lane that may take it, by its head state (R73, R146). -/
def State.headOn (s : State) (l : LinkId) (tag : Byte) (h : LaneId) (wait : Bool) (w : WarmTime) :
    State :=
  match (s.lane h).head with
  | .off | .parked =>
    let s := s.modLane h fun ln =>
      { ln with head := .warming, warmTime := w, warmTimer := some w }
    (s.hold l tag wait (.hdon h)).checkTemperature h
  | .warming => (s.modLane h fun ln => { ln with warmTime := w }).hold l tag wait (.hdon h)
  | .active => (s.modLane h fun ln => { ln with warmTime := w, park := none }).reply l tag .ok []
  | .absent | .settling _ | .recovery | .failed => s.refuse l tag .wrongState

/-- HDON (R73). -/
def State.hdon (s : State) (l : LinkId) (tag : Byte) (payload : List Byte) : State :=
  match payload with
  | [lane, mode, warm] =>
    match laneOf lane.toNat, replyMode mode with
    | some h, some wait =>
      match warmCode (s.lane h).warmTime warm.toNat with
      | some w =>
        if (s.lane h).assign = none ∨ (s.lane h).probe.isSome then s.refuse l tag .wrongState
        else s.headOn l tag h wait w
      | none => s.refuse l tag .badField
    | _, _ => s.refuse l tag .badField
  | _ => s.refuse l tag .badLength

/-! ### HDOFF (R75) -/

/-- HDOFF on a lane that may take it, by its head state (R75, R78). -/
def State.headOff (s : State) (l : LinkId) (tag : Byte) (h : LaneId) : State :=
  match (s.lane h).head with
  | .off | .settling .off => s.reply l tag .ok []
  | .warming => (s.modLane h fun ln => { ln with head := .off, warmTimer := none }).reply l tag .ok []
  | .active =>
    ((s.leaveActive h (.settling .off)).modLane h fun ln =>
      { ln with park := none, settleTimer := some ln.warmTime }).reply l tag .ok []
  | .settling .parked => (s.modLane h fun ln => { ln with head := .settling .off }).reply l tag .ok []
  | .parked => (s.modLane h fun ln => { ln with head := .off }).reply l tag .ok []
  | .absent | .recovery | .failed => s.refuse l tag .wrongState

/-- HDOFF (R75). -/
def State.hdoff (s : State) (l : LinkId) (tag : Byte) (payload : List Byte) : State :=
  match payload with
  | [lane] =>
    match laneOf lane.toNat with
    | some h =>
      if (s.lane h).probe.isSome then s.refuse l tag .wrongState else s.headOff l tag h
    | none => s.refuse l tag .badField
  | _ => s.refuse l tag .badLength

/-! ### HDPARK (R76) -/

/-- HDPARK on a lane that may take it, by its head state (R76). -/
def State.headPark (s : State) (l : LinkId) (tag : Byte) (h : LaneId) (wait now : Bool) : State :=
  match (s.lane h).head with
  | .active => (s.modLane h fun ln => { ln with park := some now }).hold l tag wait (.hdpark h)
  | .settling .parked => s.hold l tag wait (.hdpark h)
  | .parked => s.reply l tag .ok []
  | .absent | .off | .warming | .settling .off | .recovery | .failed => s.refuse l tag .wrongState

/-- HDPARK (R76). -/
def State.hdpark (s : State) (l : LinkId) (tag : Byte) (payload : List Byte) : State :=
  match payload with
  | [lane, mode, now] =>
    match laneOf lane.toNat, replyMode mode, replyMode now with
    | some h, some wait, some now =>
      if (s.lane h).probe.isSome then s.refuse l tag .wrongState else s.headPark l tag h wait now
    | _, _, _ => s.refuse l tag .badField
  | _ => s.refuse l tag .badLength

/-! ### HDREIN (R152) -/

/-- HDREIN (R152). -/
def State.hdrein (s : State) (l : LinkId) (tag : Byte) (payload : List Byte) : State :=
  match payload with
  | [lane] =>
    match laneOf lane.toNat with
    | some h =>
      if (s.lane h).head = .failed then
        (s.modLane h fun ln => { ln with head := .off, retries := 0 }).reply l tag .ok []
      else s.refuse l tag .wrongState
    | none => s.refuse l tag .badField
  | _ => s.refuse l tag .badLength

/-! ### LANESCAN (R72) -/

/-- A head state that refuses a scan (R72). -/
def HeadState.refusesScan : HeadState → Bool
  | .warming | .active | .settling _ | .recovery | .failed => true
  | .absent | .off | .parked => false

/-- LANESCAN: a probe on every named lane; the reply when all have ended (R72). That their identifies are recorded in
lane order is the model's choice (log 36). -/
def State.lanescan (s : State) (l : LinkId) (tag : Byte) (payload : List Byte) : State :=
  match payload with
  | [set] =>
    let named := laneSetOf set
    if set.toNat = 0 then s.refuse l tag .badField
    else if laneIds.any fun h =>
        named.get h && ((s.lane h).probe.isSome || (s.lane h).head.refusesScan) then
      s.refuse l tag .wrongState
    else
      let s := (laneIds.filter named.get).foldl (fun s h => s.beginProbe h (.plain true)) s
      s.setBusy l (some (.scan tag named (.all false)))
  | _ => s.refuse l tag .badLength

/-! ### DRVSET (R141, R143, R146) -/

/-- DRVSET: the drive fields, the check of the new limit, and the level and target after it (R141;
log 19). -/
def State.drvset (s : State) (l : LinkId) (tag : Byte) (payload : List Byte) : State :=
  match payload with
  | [lane, target, step, interval, limit] =>
    match laneOf lane.toNat, stepCode step.toNat, intervalCode interval.toNat with
    | some h, some st, some iv =>
      if limit.toNat < 40 ∨ 100 < limit.toNat then s.refuse l tag .badField
      else
        let s := s.modLane h (·.setDrive target.toNat st iv limit.toNat)
        let s := s.checkTemperature h
        s.reply l tag .ok [be8 (s.lane h).drive, be8 (s.lane h).target]
    | _, _, _ => s.refuse l tag .badField
  | _ => s.refuse l tag .badLength

end Sys2Proof.Machine
end

