-- ==== Sys2Proof/Machine/NozzleRequests.lean ====
section
/-! DEFINITION. The nozzle table's requests NZEDIT, NZDROP, NZREAD, NZCOMMIT
(05_the_nozzle_condition_table.md). -/

namespace Sys2Proof.Machine

/-! ### NZEDIT, NZDROP (R98 to R100) -/

/-- An accepted NZEDIT: the stage sequence rises, the edits join the newest end (R99). -/
def NozzleLists.stageEdits (x : NozzleLists) (es : List Edit) : NozzleLists :=
  { x with stage := x.stage + 1, pending := x.pending ++ es }

/-- NZEDIT: the checks of R98 in order, then R99. -/
def State.nzedit (s : State) (l : LinkId) (tag : Byte) (payload : List Byte) : State :=
  match payload with
  | [] => s.refuse l tag .badLength
  | n :: entries =>
    if n.toNat = 0 ∨ 64 < n.toNat then s.refuse l tag .badField
    else if entries.length ≠ 9 * n.toNat then s.refuse l tag .badLength
    else
      match editsOf (s.lists.stage + 1) n.toNat entries with
      | none => s.refuse l tag .badField
      | some es =>
        if Config.pendingCapacity < s.lists.pending.length + n.toNat then s.refuse l tag .full
        else
          let s := s.setLists (s.lists.stageEdits es)
          s.reply l tag .ok (be16 s.lists.pending.length ++ be32 s.lists.stage.toNat)

/-- NZDROP (R100). -/
def State.nzdrop (s : State) (l : LinkId) (tag : Byte) (payload : List Byte) : State :=
  if payload ≠ [] then s.refuse l tag .badLength
  else
    (s.setLists { s.lists with pending := [] }).reply l tag .ok (be16 s.lists.pending.length)

/-! ### NZREAD (R101, R180) -/

/-- A nozzle state as sent. -/
def nozzleStateCode : NozzleState → Nat
  | .good => 0 | .weak => 1 | .disabled => 2 | .failed _ => 3

/-- A fail cause as sent. -/
def failCauseCode : NozzleState → Nat
  | .failed .openNozzle => 1 | .failed .short => 2 | .failed .set => 3 | _ => 0

/-- The low bits of a number in two's complement. -/
def lowBits (n : Nat) (v : Int) : Nat := (v % (2 ^ n : Nat)).toNat

/-- A nozzle entry as sent, 4 bytes (R101, R180). Bits 7..6 of byte 0 and bit 7 of byte 1, which R180 does not list,
are sent as 0: the model's choice (log 35). -/
def nozzleEntry (x : Nozzle) (pending inTransition : Bool) : List Byte :=
  [be8 (nozzleStateCode x.state + 4 * failCauseCode x.state + 16 * bitsToNat [pending, inTransition]),
    be8 (lowBits 4 x.trim + 16 * lowBits 3 (x.sub.getD 0))] ++
    be16 (x.idle % 4096 + 4096 * x.acc)

/-- An entry with its flags, by its number in table order (R93, R101). -/
def State.readEntry (s : State) (k : Nat) : List Byte :=
  match laneOf (k / 1024) with
  | some h =>
    let n := k % 1024
    nozzleEntry (((s.lane h).nozzles[n]?).getD .powerOn) (s.lists.pending.any (·.targets h n))
      (s.lists.transitionEdits.any (·.targets h n))
  | none => []

/-- The header of an NZREAD reply, 9 bytes (R180). Without a transition the row's bytes are a free value
(log 11). -/
def NozzleLists.header (x : NozzleLists) (free : Line) : List Byte :=
  match x.transition with
  | some t =>
    be16 x.pending.length ++ be16 t.page ++ be16 t.row ++
      [barSetByte (t.switched.map fun v => v == some true)] ++ be16 t.edits.length
  | none => be16 x.pending.length ++ be16 0 ++ be16 free.toNat ++ [0] ++ be16 0

/-- NZREAD (R101). -/
def State.nzread (s : State) (l : LinkId) (tag : Byte) (payload : List Byte) : State :=
  match payload with
  | [lane, f1, f0, c1, c0] =>
    let start := 1024 * lane.toNat + u16 f1 f0
    let count := u16 c1 c0
    if 7 < lane.toNat ∨ 1023 < u16 f1 f0 ∨ count = 0 ∨ 256 < count ∨ 8192 < start + count then
      s.refuse l tag .badField
    else
      s.draw.reply l tag .ok
        (s.lists.header (Config.freeWord s.fresh) ++
          (List.range count).flatMap fun i => s.readEntry (start + i))
  | _ => s.refuse l tag .badLength

/-! ### NZCOMMIT (R102 to R104) -/

/-- Whether a bar of the page's set has begun the load of a row (R102 check 8). -/
def State.rowBegun (s : State) (p : Page) (row : Nat) : Bool :=
  match p.trigger with
  | some t =>
    p.state == .printing &&
      barIds.any fun b =>
        p.hasBar b && decide ((s.bar b).offset + row ≤ (s.position.line - t).toNat)
  | none => false

/-- An accepted IMMEDIATE commit writes every edit and empties the list (R103). -/
def State.commitNow (s : State) : State :=
  (s.writeTable s.lists.pending).setLists { s.lists with pending := [] }

/-- An accepted ALIGNED commit moves the edits into a transition (R104). -/
def State.beginTransition (s : State) (p : Page) (row : Nat) : State :=
  s.setLists { s.lists with
    pending := []
    transition := some
      ⟨p.id, row, s.lists.pending, p.bars.map fun x => if x then some false else none⟩ }

/-- NZCOMMIT: the checks of R102 in order, then R103 or R104. -/
def State.nzcommit (s : State) (l : LinkId) (tag : Byte) (payload : List Byte) : State :=
  match payload with
  | [mode, rm, i1, i0, r1, r0] =>
    match replyMode mode, replyMode rm with
    | some aligned, some wait =>
      if s.lists.transition.isSome then s.refuse l tag .wrongState
      else if s.lists.pending = [] then s.reply l tag .ok (be16 0)
      else if aligned then
        match s.page (u16 i1 i0) with
        | none => s.refuse l tag .notFound
        | some p =>
          if p.state = .done ∨ p.state = .aborted then s.refuse l tag .wrongState
          else if p.rowCount ≤ u16 r1 r0 then s.refuse l tag .badField
          else if s.rowBegun p (u16 r1 r0) then s.refuse l tag .wrongState
          else
            let t := s.beginTransition p (u16 r1 r0)
            if wait then t.setBusy l (some (.waiting tag .nzcommit))
            else t.reply l tag .ok (be16 s.lists.pending.length)
      else s.commitNow.reply l tag .ok (be16 s.lists.pending.length)
    | _, _ => s.refuse l tag .badField
  | _ => s.refuse l tag .badLength

end Sys2Proof.Machine
end

