-- ==== Sys2Proof/Machine/PageRequests.lean ====
section
/-! DEFINITION. The Page Queue's requests: PGOPEN, PGCANCEL, PGABORT, PGRETIRE, PGSTAT, SUPPR
(02_pages_and_triggers.md). -/

namespace Sys2Proof.Machine

/-! ### PGOPEN (R26, R27) -/

/-- The record PGOPEN appends (R24). -/
def newPage (id rowCount : Nat) (bars : PerBar Bool) (gap : Option Name) (st : PageState) : Page where
  id := id
  rowCount := rowCount
  progress := bars.map fun x => if x then some 0 else none
  gap := gap
  state := st
  trigger := none
  delivered := 0
  complete := 0
  missedUnderrun := 0
  missedLate := 0
  missedOverspeed := 0
  suppressed := 0
  lost := 0
  substituted := 0
  degraded := false
  cause := none

/-- Whether a pattern is in the directory and READY. -/
def State.patternReady (s : State) (n : Name) : Bool :=
  match s.pattern n with
  | some e => e.ready
  | none => false

/-- The gap pattern a PGOPEN names: none for an empty name. -/
def gapName (n : Name) : Option Name := if n = [] then none else some n

/-- PGOPEN's effect once it is accepted (R27). -/
def State.openPage (s : State) (id rowCount : Nat) (bars : PerBar Bool) (name : Name) : State :=
  let st := if s.armedPage.isSome then PageState.declared else .armed
  s.setPages (s.queue.pages ++ [newPage id rowCount bars (gapName name) st])

/-- PGOPEN: the checks of R26 in order, then R27. -/
def State.pgopen (s : State) (l : LinkId) (tag : Byte) (payload : List Byte) : State :=
  match payload with
  | i1 :: i0 :: r1 :: r0 :: set :: name =>
    if 8 < name.length then s.refuse l tag .badLength
    else if u16 i1 i0 = 0 ∨ u16 r1 r0 = 0 ∨ set.toNat = 0 ∨ 16 ≤ set.toNat then
      s.refuse l tag .badField
    else if !name.all nameChar then s.refuse l tag .badField
    else if !s.barsEnabled (barSetOf set) then s.refuse l tag .badField
    else if (s.page (u16 i1 i0)).isSome ∨ s.ringHolds (u16 i1 i0) then s.refuse l tag .exists_
    else if Config.queueCapacity ≤ s.queue.pages.length then s.refuse l tag .full
    else if name ≠ [] ∧ !s.patternReady name then s.refuse l tag .notFound
    else
      let s := s.openPage (u16 i1 i0) (u16 r1 r0) (barSetOf set) name
      s.reply l tag .ok [be8 s.queue.pages.length]
  | _ => s.refuse l tag .badLength

/-! ### PGCANCEL, PGABORT, PGRETIRE (R36, R37, R39) -/

/-- A DECLARED or ARMED page is removed: its held rows are finished, a transition that names it ends, the
next page is armed if it was ARMED (R16, R36, R107). A waiting NZCOMMIT whose transition ends replies here, before the
PGCANCEL's own OK: the model's choice (log 36). -/
def State.removePage (s : State) (p : Page) : State :=
  let s := s.setPages (s.queue.pages.filter (·.id != p.id))
  let s := (s.abandonPage p.id).finishRows p.id
  let s := s.endTransitionOf p.id
  if p.state = .armed then s.setPages (armOldest s.queue.pages) else s

/-- PGCANCEL (R36). The removal or abort comes first, so the OK of a waiting NZCOMMIT whose transition it ends (Service
link) is recorded before the PGCANCEL's own OK (Image link). No rule orders replies of different links: the model's
choice (log 36). -/
def State.pgcancel (s : State) (l : LinkId) (tag : Byte) (payload : List Byte) : State :=
  match payload with
  | [i1, i0] =>
    match s.page (u16 i1 i0) with
    | none => s.refuse l tag .notFound
    | some p =>
      match p.state with
      | .declared | .armed => (s.removePage p).reply l tag .ok []
      | .printing => (s.abortPage p.id .cancelled).reply l tag .ok []
      | .done | .aborted => s.refuse l tag .wrongState
  | _ => s.refuse l tag .badLength

/-- The ids of the PRINTING pages. -/
def State.printingIds (s : State) : List Nat :=
  (s.queue.pages.filter (·.state == .printing)).map (·.id)

/-- Every PRINTING page is aborted (R37, page id 0). -/
def State.abortAll (s : State) : State :=
  s.printingIds.foldl (fun s id => s.abortPage id .motionAbort) s

/-- PGABORT (R37). The aborts come first, so the OK of a waiting NZCOMMIT whose transition they end (Service link) is
recorded before the PGABORT's own OK (Motion link): the model's choice (log 36). -/
def State.pgabort (s : State) (l : LinkId) (tag : Byte) (payload : List Byte) : State :=
  match payload with
  | [i1, i0] =>
    if u16 i1 i0 = 0 then
      if s.anyPrinting then s.abortAll.reply l tag .ok [] else s.refuse l tag .wrongState
    else
      match s.page (u16 i1 i0) with
      | none => s.refuse l tag .notFound
      | some p =>
        if p.state = .printing then (s.abortPage p.id .motionAbort).reply l tag .ok []
        else s.refuse l tag .wrongState
  | _ => s.refuse l tag .badLength

/-- PGRETIRE (R39). -/
def State.pgretire (s : State) (l : LinkId) (tag : Byte) (payload : List Byte) : State :=
  match payload with
  | [i1, i0] =>
    match s.page (u16 i1 i0) with
    | none => s.refuse l tag .notFound
    | some p =>
      if p.state = .done ∨ p.state = .aborted then
        (s.setPages (s.queue.pages.filter (·.id != p.id))).reply l tag .ok []
      else s.refuse l tag .wrongState
  | _ => s.refuse l tag .badLength

/-! ### PGSTAT (R40, R180) -/

/-- A page record as sent, 48 bytes (R180). Bits 7..3 of byte 7, which R180 does not list, are sent as 0: the model's
choice (log 35). -/
def pageRecord (p : Page) : List Byte :=
  be16 p.id ++ be16 p.rowCount ++
    [barSetByte p.bars, be8 (pageStateCode p.state), be8 (causeCode p.cause),
      be8 (bitsToNat [p.degraded, p.trigger.isSome, p.gap.isSome])] ++
    be32 (p.trigger.getD 0).toNat ++ be16 p.delivered ++ be16 p.complete ++
    p.progress.toList.flatMap (fun x => be16 (x.getD 0)) ++
    be16 p.missedUnderrun ++ be16 p.missedLate ++ be16 p.missedOverspeed ++ be16 p.suppressed ++
    be32 p.lost ++ be32 p.substituted ++ nameField p.gap

/-- PGSTAT (R40). -/
def State.pgstat (s : State) (l : LinkId) (tag : Byte) (payload : List Byte) : State :=
  match payload with
  | [i1, i0] =>
    if u16 i1 i0 = 0 then
      s.reply l tag .ok (be8 s.queue.pages.length :: s.queue.pages.flatMap pageRecord)
    else
      match s.page (u16 i1 i0) with
      | none => s.refuse l tag .notFound
      | some p => s.reply l tag .ok (pageRecord p)
  | _ => s.refuse l tag .badLength

/-! ### SUPPR (R41) -/

/-- SUPPR (R41). -/
def State.suppr (s : State) (l : LinkId) (tag : Byte) (payload : List Byte) : State :=
  match payload with
  | [v] =>
    if v.toNat = 0 ∨ v.toNat = 1 then
      (s.setQueue { s.queue with suppress := v.toNat == 1 }).reply l tag .ok []
    else s.refuse l tag .badField
  | _ => s.refuse l tag .badLength

end Sys2Proof.Machine
end

