-- ==== Sys2Proof/Machine/PatternRequests.lean ====
section
/-! DEFINITION. The Pattern Library's requests PTNEW, PTROW, PTDEL, PTLIST, CHKPRINT
(08_pattern_library_and_gap_prints.md). -/

namespace Sys2Proof.Machine

/-- A pattern kind by its code (R158). -/
def kindOf (n : Nat) : Option PatternKind :=
  match n with
  | 0 => some .spit | 1 => some .check | _ => none

/-- A pattern kind as sent. -/
def kindCode : PatternKind → Nat
  | .spit => 0 | .check => 1

/-! ### Extents (R157, R158) -/

/-- Whether n memory rows from a start lie clear of an extent. -/
def Pattern.clearOf (e : Pattern) (start n : Nat) : Bool :=
  decide (start + n ≤ e.start) || decide (e.start + e.rows ≤ start)

/-- The lowest start of n free memory rows (R158). -/
def firstFit (dir : List Pattern) (n : Nat) : Option Nat :=
  (List.range (Config.patternRows + 1 - n)).find? fun start => dir.all (·.clearOf start n)

/-- The number of free memory rows. -/
def freeRows (dir : List Pattern) : Nat := Config.patternRows - (dir.map (·.rows)).sum

/-- The free rows from a start up to the next extent, 0 if the start lies in one. -/
def runFrom (dir : List Pattern) (start : Nat) : Nat :=
  if dir.any fun e => decide (e.start ≤ start) && decide (start < e.start + e.rows) then 0
  else
    (dir.map (·.start)).foldl (fun m x => if start ≤ x then min m (x - start) else m)
      (Config.patternRows - start)

/-- The row count of the largest run of free rows: a run begins at row 0 or where an extent ends. -/
def largestRun (dir : List Pattern) : Nat :=
  (0 :: dir.map fun e => e.start + e.rows).foldl (fun m x => max m (runFrom dir x)) 0

/-- Change the directory. -/
def State.setDirectory (s : State) (dir : List Pattern) : State :=
  s.setLibrary { s.library with directory := dir }

/-! ### PTNEW (R158) -/

/-- PTNEW: the checks of R158 in order, then the entry with its first-fit extent. -/
def State.ptnew (s : State) (l : LinkId) (tag : Byte) (payload : List Byte) : State :=
  match payload with
  | kind :: r1 :: r0 :: name =>
    if name = [] ∨ 8 < name.length then s.refuse l tag .badLength
    else
      match kindOf kind.toNat with
      | none => s.refuse l tag .badField
      | some k =>
        if u16 r1 r0 = 0 ∨ 256 < u16 r1 r0 then s.refuse l tag .badField
        else if !name.all nameChar then s.refuse l tag .badField
        else if Config.directoryCapacity ≤ s.library.directory.length then s.refuse l tag .full
        else if (s.pattern name).isSome then s.refuse l tag .exists_
        else
          match firstFit s.library.directory (u16 r1 r0) with
          | none => s.refuse l tag .noSpace
          | some start =>
            (s.setDirectory (s.library.directory ++
              [⟨name, k, u16 r1 r0, start, false, []⟩])).reply l tag .ok (be16 start)
  | _ => s.refuse l tag .badLength

/-! ### PTROW (R159) -/

/-- The rows written set with one more index. -/
def addIndex (i : Nat) (xs : List Nat) : List Nat := if xs.contains i then xs else xs ++ [i]

/-- An entry one of whose rows has been written; READY when every row has (R159). -/
def Pattern.write (e : Pattern) (i : Nat) : Pattern :=
  { e with
    written := addIndex i e.written
    ready := e.ready || (List.range e.rows).all fun k => (addIndex i e.written).contains k }

/-- PTROW's effect once it is accepted (R159). -/
def State.writePattern (s : State) (e : Pattern) (i : Nat) (levels : List Byte) : State :=
  s.setLibrary { s.library with
    memory := Memory.writeRun s.library.memory (rowAddress (e.start + i)) levels
    directory := s.library.directory.map fun x => if x.name == e.name then x.write i else x }

/-- PTROW (R159). -/
def State.ptrow (s : State) (l : LinkId) (tag : Byte) (payload : List Byte) : State :=
  if payload.length ≠ 266 then s.refuse l tag .badLength
  else
    match paddedName (payload.take 8), (payload.drop 8).take 2 with
    | some n, [i1, i0] =>
      match s.pattern n with
      | none => s.refuse l tag .notFound
      | some e =>
        if e.rows ≤ u16 i1 i0 then s.refuse l tag .badField
        else
          let e' := e.write (u16 i1 i0)
          (s.writePattern e (u16 i1 i0) (payload.drop 10)).reply l tag .ok
            (be16 e'.written.length ++ [be8 (bitsToNat [e'.ready])])
    | _, _ => s.refuse l tag .badField

/-! ### PTDEL (R160) -/

/-- Whether a check slot's check names a pattern. -/
def State.slotNames (s : State) (b : BarId) (n : Name) : Bool :=
  match (s.bar b).checkSlot with
  | some (.waiting id) | some (.playing id _) =>
    s.library.checks.any fun r => r.runsAt b id && r.name == n
  | none => false

/-- Whether a pattern is referenced (R160). -/
def State.referenced (s : State) (n : Name) : Bool :=
  s.queue.pages.any (·.gap == some n) ||
    barIds.any fun b =>
      s.slotNames b n ||
        match (s.bar b).gapPlay with
        | some g => g.name == n
        | none => false

/-- PTDEL (R160). -/
def State.ptdel (s : State) (l : LinkId) (tag : Byte) (payload : List Byte) : State :=
  if payload = [] ∨ 8 < payload.length then s.refuse l tag .badLength
  else if !payload.all nameChar then s.refuse l tag .badField
  else
    match s.pattern payload with
    | none => s.refuse l tag .notFound
    | some _ =>
      if s.referenced payload then s.refuse l tag .inUse
      else
        let dir := s.library.directory.filter (·.name != payload)
        (s.setDirectory dir).reply l tag .ok (be16 (freeRows dir))

/-! ### PTLIST (R169, R180) -/

/-- A directory entry as sent, 16 bytes. -/
def directoryEntry (e : Pattern) : List Byte :=
  nameField (some e.name) ++ [be8 (kindCode e.kind), be8 (bitsToNat [e.ready])] ++
    be16 e.rows ++ be16 e.start ++ be16 e.written.length

/-- A bar block as sent, 14 bytes; the next pattern row of an IDLE play is a free value (log 11). -/
def barBlock (free : Line) (x : Bar) : List Byte :=
  let play := match x.gapPlay with
    | some g =>
      [1, match g.source with | .page => 0 | .check => 1] ++ nameField (some g.name) ++ be16 g.next
    | none => [0, 0] ++ nameField none ++ be16 free.toNat
  let slot := match x.checkSlot with
    | none => [0, 0]
    | some (.waiting id) => [1, be8 id]
    | some (.playing id _) => [2, be8 id]
  play ++ slot

/-- A check record as sent, 43 bytes; the block of a bar outside the set is zero. Bar n draws free value
base + n. -/
def checkRecord (base : Nat) (r : CheckRec) : List Byte :=
  be8 r.id :: nameField (some r.name) ++ [barSetByte r.barSet, be8 (bitsToNat [r.ended])] ++
    barIds.flatMap fun b =>
      match r.bars.get b with
      | some x => checkBlock (Config.freeWord (base + barNumber b)) x
      | none => List.replicate 8 0

/-- The check records as sent, each drawing four free values. -/
def checkRecords (base : Nat) : List CheckRec → List Byte
  | [] => []
  | r :: rs => checkRecord base r ++ checkRecords (base + 4) rs

/-- PTLIST (R169). -/
def State.ptlist (s : State) (l : LinkId) (tag : Byte) (payload : List Byte) : State :=
  if payload ≠ [] then s.refuse l tag .badLength
  else
    let dir := s.library.directory
    let checks := s.library.checks
    (s.setFresh (s.fresh + 4 + 4 * checks.length)).reply l tag .ok
      (be16 (freeRows dir) ++ be16 (largestRun dir) ++
        be8 dir.length :: dir.flatMap directoryEntry ++
        barIds.flatMap (fun b => barBlock (Config.freeWord (s.fresh + barNumber b)) (s.bar b)) ++
        be8 checks.length :: checkRecords (s.fresh + 4) checks)

/-! ### CHKPRINT (R166, R167) -/

/-- The next check id: a rise by one that passes from 255 to 1 (R166). -/
def nextCheckId (count : Nat) : Nat := if 255 ≤ count then 1 else count + 1

/-- The record an accepted CHKPRINT appends (R167). R166 copies a bar's rows unprinted at the end of its play
and neither rule gives the value before: the model holds 0 until then, which PTLIST then reads (R180; DESIGN
CHOICE, log 34). -/
def newCheck (id : Nat) (n : Name) (bars : PerBar Bool) : CheckRec :=
  ⟨id, n, bars.map fun x => if x then some ⟨.waiting, none, 0⟩ else none, false⟩

/-- A check list without its oldest ENDED record. -/
def dropEnded : List CheckRec → List CheckRec
  | [] => []
  | r :: rs => if r.ended then rs else r :: dropEnded rs

/-- A check list that holds more than its capacity loses its oldest ENDED record (R166). -/
def trimChecks (rs : List CheckRec) : List CheckRec :=
  if Config.checkCapacity < rs.length then dropEnded rs else rs

/-- CHKPRINT's effect once it is accepted (R167). -/
def State.openCheck (s : State) (n : Name) (bars : PerBar Bool) : State :=
  let id := nextCheckId s.library.checkCount
  let s := s.setLibrary { s.library with
    checkCount := id
    checks := trimChecks (s.library.checks ++ [newCheck id n bars]) }
  s.setBars (.ofFn fun b =>
    if bars.get b then { s.bar b with checkSlot := some (.waiting id) } else s.bar b)

/-- CHKPRINT: the checks of R167 in order, then the check. -/
def State.chkprint (s : State) (l : LinkId) (tag : Byte) (payload : List Byte) : State :=
  match payload with
  | mode :: set :: name =>
    if name = [] ∨ 8 < name.length then s.refuse l tag .badLength
    else
      match replyMode mode with
      | none => s.refuse l tag .badField
      | some wait =>
        let bars := barSetOf set
        if set.toNat = 0 ∨ 16 ≤ set.toNat then s.refuse l tag .badField
        else if !name.all nameChar then s.refuse l tag .badField
        else if !s.barsEnabled bars then s.refuse l tag .badField
        else
          match s.pattern name with
          | none => s.refuse l tag .notFound
          | some e =>
            if !e.ready then s.refuse l tag .notFound
            else if e.kind = .spit then s.refuse l tag .badField
            else if barIds.any fun b => bars.get b && (s.bar b).checkSlot.isSome then
              s.refuse l tag .wrongState
            else
              let id := nextCheckId s.library.checkCount
              let s := s.openCheck name bars
              if wait then s.setBusy l (some (.waiting tag (.chkprint id bars)))
              else s.reply l tag .ok [be8 id]
  | _ => s.refuse l tag .badLength

end Sys2Proof.Machine
end

