-- ==== Sys2Proof/Machine/PositionRequests.lean ====
section
/-! DEFINITION. The Motion link's line requests LNSETUP, LNZERO and TRIG
(03_web_position_and_line_ticks.md). -/

namespace Sys2Proof.Machine

/-- The fields of an accepted LNSETUP (R59): a new pitch sets the accumulator to 0. -/
def Position.setup (p : Position) (pitch : Nat) (swapped : Bool) (source : TriggerSource)
    (holdoff autoPitch : Nat) : Position :=
  { p with
    pitch := pitch
    accumulator := if pitch = p.pitch then p.accumulator else 0
    swapped := swapped
    source := source
    holdoff := holdoff
    autoPitch := autoPitch }

/-- LNSETUP: the checks of R58 in order, then R59 and R44. -/
def State.lnsetup (s : State) (l : LinkId) (tag : Byte) (payload : List Byte) : State :=
  match payload with
  | [p1, p0, sense, src, h1, h0, a1, a0, m1, m0] =>
    match sourceOf src.toNat with
    | none => s.refuse l tag .badField
    | some source =>
      if u16 p1 p0 < 256 ∨ 1 < sense.toNat ∨ 2048 < u16 m1 m0 then s.refuse l tag .badField
      else if s.anyPrinting ∧
          (u16 p1 p0 ≠ s.position.pitch ∨ (sense.toNat == 1) ≠ s.position.swapped) then
        s.refuse l tag .wrongState
      else
        let s := s.setPosition
          (s.position.setup (u16 p1 p0) (sense.toNat == 1) source (u16 h1 h0) (u16 a1 a0))
        (s.setQueue { s.queue with readyMargin := u16 m1 m0 }).reply l tag .ok []
  | _ => s.refuse l tag .badLength

/-- The web measurement at its origin (R60). -/
def Position.zero (p : Position) : Position :=
  { p with
    encoder := 0
    highWater := 0
    depth := 0
    accumulator := 0
    line := 0
    lastTrigger := none
    lastRows := 0 }

/-- LNZERO (R60). -/
def State.lnzero (s : State) (l : LinkId) (tag : Byte) (payload : List Byte) : State :=
  if payload ≠ [] then s.refuse l tag .badLength
  else if s.anyPrinting then s.refuse l tag .wrongState
  else (s.setPosition s.position.zero).reply l tag .ok []

/-- The outcome byte of a TRIG's reply (R56). -/
def outcomeByte : TriggerOutcome → Byte
  | .taken => 0 | .early => 1 | .empty => 2

/-- TRIG (R54, R56): offered under LINK and AUTO, and answered with the outcome and the line. What the trigger does comes
first, so the OK of a waiting NZCOMMIT whose last bar switches at it (R106, Service link) is recorded before TRIG's own
(Motion link): the model's choice (log 36). -/
def State.trig (s : State) (l : LinkId) (tag : Byte) (payload : List Byte) : State :=
  if payload ≠ [] then s.refuse l tag .badLength
  else if s.position.source = .pdet then s.refuse l tag .wrongState
  else
    (s.offer false).reply l tag .ok (outcomeByte s.judge :: be32 s.position.line.toNat)

end Sys2Proof.Machine
end

