-- ==== Sys2Proof/Machine/RingRequests.lean ====
section
/-! DEFINITION. The Row Ring's requests ROWPUT, ROWSKIP, RINGMARK and the completion of a ROWPUT's write
(01_the_row_ring.md). -/

namespace Sys2Proof.Machine

/-- The free slot count as a reply carries it. -/
def State.replyFree (s : State) (l : LinkId) (tag : Byte) : State :=
  s.reply l tag .ok (be16 s.freeSlots)

/-! ### ROWPUT (R8 to R12) -/

/-- Whether a held row lacks the part of a bar. -/
def RowRec.lacks (r : RowRec) (b : BarId) : Bool :=
  match r.parts.get b with
  | some x => x.status == .absent
  | none => false

/-- Whether a ROWPUT fills an ABSENT part of a held row (R8 check 9). -/
def State.fillable (s : State) (page row : Nat) (b : BarId) : Bool :=
  match s.row page row with
  | some r => r.lacks b
  | none => false

/-- Rows are appended at the newest end, and counted as delivered (R1, R6). -/
def State.appendRows (s : State) (page : Nat) (rs : List RowRec) : State :=
  (s.setRows (s.ring.rows ++ rs)).modPage page fun p =>
    { p with delivered := p.delivered + rs.length }

/-- An accepted ROWPUT: the Image link has it in progress, and it claims the row store (R9, R10, R12). -/
def State.startWrite (s : State) (l : LinkId) (tag : Byte) (page row : Nat) (b : BarId)
    (part : PlanePart) : State :=
  s.setBusy l (some (.rowput tag page row b part))

/-- The part a ROWPUT delivers: the levels of the bar's width, and its first column (R5, R65). -/
def State.partOf (s : State) (b : BarId) (levels : List Byte) : PlanePart :=
  ⟨s.barFirst b, unpackLevels (s.barWidth b) levels⟩

/-- ROWPUT: the checks of R8 in order, then a new row (R9) or a fill (R10). -/
def State.rowput (s : State) (l : LinkId) (tag : Byte) (payload : List Byte) : State :=
  match payload with
  | i1 :: i0 :: r1 :: r0 :: bar :: levels =>
    let id := u16 i1 i0
    let row := u16 r1 r0
    match barOf bar.toNat with
    | none => s.refuse l tag .badField
    | some b =>
      match s.page id with
      | none => s.refuse l tag .notFound
      | some p =>
        if !p.hasBar b then s.refuse l tag .badField
        else if levels.length ≠ (s.barWidth b + 3) / 4 then s.refuse l tag .badLength
        else if p.rowCount ≤ row then s.refuse l tag .badField
        else if p.state = .aborted then s.refuse l tag .wrongState
        else if s.isIntake id ∧ row = p.delivered then
          if s.freeSlots = 0 then s.refuse l tag .full
          else
            (s.appendRows id [newRow p row .absent (some b)]).startWrite l tag id row b
              (s.partOf b levels)
        else if s.fillable id row b then
          (s.modRow id row fun r => { r with writing := some b }).startWrite l tag id row b
            (s.partOf b levels)
        else s.refuse l tag .sequence
  | _ => s.refuse l tag .badLength

/-- The delivered part is PRESENT and the write no longer in flight (R11). -/
def RowRec.store (r : RowRec) (b : BarId) (part : PlanePart) : RowRec :=
  { r with
    parts := r.parts.set b ((r.parts.get b).map fun x => { x with status := .present part })
    writing := none }

/-- A row becomes complete: its page counts it, and waiting loads are handed it (R3, R4). -/
def State.completeRow (s : State) (page row : Nat) : State :=
  (s.modPage page fun p => { p with complete := p.complete + 1 }).handRow page row

/-- ROWPUT_WRITE_COMPLETE: the write that has the row store ends (R11). -/
def State.writeComplete (s : State) : State :=
  match s.ring.store, (s.link .image).busy with
  | .write, some (.rowput tag page row b part) =>
    let s := (s.setStore .free).setBusy .image none
    let s := s.modRow page row (·.store b part)
    let s := if s.rowComplete page row then s.completeRow page row else s
    s.release.replyFree .image tag
  | _, _ => s

/-! ### ROWSKIP (R13) -/

/-- The row records a ROWSKIP creates: every part BLANK (R13). -/
def blankRows (p : Page) (first count : Nat) : List RowRec :=
  (List.range count).map fun i => newRow p (first + i) .blank none

/-- ROWSKIP's effect once it is accepted (R13). -/
def State.skipRows (s : State) (p : Page) (first count : Nat) : State :=
  let s := s.appendRows p.id (blankRows p first count)
  let s := (List.range count).foldl (fun s i => s.completeRow p.id (first + i)) s
  s.release

/-- ROWSKIP: the checks of R13 in order, then its rows. -/
def State.rowskip (s : State) (l : LinkId) (tag : Byte) (payload : List Byte) : State :=
  match payload with
  | [i1, i0, f1, f0, c1, c0] =>
    let id := u16 i1 i0
    let first := u16 f1 f0
    let count := u16 c1 c0
    if count = 0 ∨ 256 < count then s.refuse l tag .badField
    else
      match s.page id with
      | none => s.refuse l tag .notFound
      | some p =>
        if p.rowCount < first + count then s.refuse l tag .badField
        else if p.state = .aborted then s.refuse l tag .wrongState
        else if !s.isIntake id ∨ first ≠ p.delivered then s.refuse l tag .sequence
        else if s.freeSlots < count then s.refuse l tag .full
        else (s.skipRows p first count).replyFree l tag
  | _ => s.refuse l tag .badLength

/-! ### RINGMARK (R14) -/

/-- RINGMARK (R14). -/
def State.ringmark (s : State) (l : LinkId) (tag : Byte) (payload : List Byte) : State :=
  match payload with
  | [m1, m0] =>
    if 1 ≤ u16 m1 m0 ∧ u16 m1 m0 ≤ 2048 then
      (s.setRing { s.ring with roomMark := u16 m1 m0 }).replyFree l tag
    else s.refuse l tag .badField
  | _ => s.refuse l tag .badLength

end Sys2Proof.Machine
end

