-- ==== Sys2Proof/Machine/StatusRequests.lean ====
section
/-! DEFINITION. Status, events, withdrawal and Press Reset: STATRD, EVRD, EVCLR, EVMASK, WDRAW, PRRESET
(chapters 09 and 10). -/

namespace Sys2Proof.Machine

/-! ### STATRD (R186, R180) -/

/-- A lane block of the status block, 7 bytes. -/
def laneBlock (ln : Lane) : List Byte :=
  [be8 (headStateCode ln.head), be8 ln.drive, be8 ln.target, be8 ln.temperature, be8 ln.limit,
    be8 (faultCode ln.lastFault), be8 ln.retries]

/-- The counters of a link in the status block. -/
def linkCounters (k : Link) : List Byte := be16 k.discarded ++ be16 k.badCheck

/-- The status block, 105 bytes (R180). Bits 7..2 of byte 7, which R180 does not list, are sent as 0: the model's
choice (log 35). -/
def State.statusBlock (s : State) : List Byte :=
  let p := s.position
  be16 s.ring.rows.length ++ be16 s.freeSlots ++ [be8 s.queue.pages.length] ++
    be16 (match s.armedPage with | some a => a.id | none => 0) ++
    [be8 (bitsToNat [s.queue.ready, s.queue.suppress])] ++
    be32 p.line.toNat ++ be32 p.highWater.toNat ++ be32 p.encoder.toNat ++
    [be8 (sourceCode p.source)] ++ be16 p.taken ++ be16 p.early ++ be16 p.empty ++
    be32 p.reverseTotal.toNat ++ be16 p.overspeed ++ be16 s.lists.superseded ++
    be16 s.library.truncated ++
    linkCounters s.links.image ++ linkCounters s.links.motion ++ linkCounters s.links.service ++
    laneIds.flatMap fun h => laneBlock (s.lane h)

/-- STATRD (R186). -/
def State.statrd (s : State) (l : LinkId) (tag : Byte) (payload : List Byte) : State :=
  if payload ≠ [] then s.refuse l tag .badLength else s.reply l tag .ok s.statusBlock

/-! ### EVRD, EVCLR, EVMASK (R183 to R185) -/

/-- A flag word as sent. -/
def flagBytes (w : FlagWord) : List Byte := be16 w.toNat

/-- A flag word as received. -/
def flagWord (hi lo : Byte) : FlagWord := BitVec.ofNat 16 (u16 hi lo)

/-- Whether a word has a bit set that names no flag of the link. -/
def namesNoFlag (l : LinkId) (w : FlagWord) : Bool := (w &&& ~~~flagsOf l) != 0

/-- EVRD (R183). -/
def State.evrd (s : State) (l : LinkId) (tag : Byte) (payload : List Byte) : State :=
  if payload ≠ [] then s.refuse l tag .badLength
  else s.reply l tag .ok (flagBytes (s.link l).flags ++ flagBytes (s.link l).mask)

/-- EVCLR (R184). -/
def State.evclr (s : State) (l : LinkId) (tag : Byte) (payload : List Byte) : State :=
  match payload with
  | [w1, w0] =>
    if namesNoFlag l (flagWord w1 w0) then s.refuse l tag .badField
    else
      let s := s.modLink l fun k => { k with flags := k.flags &&& ~~~flagWord w1 w0 }
      s.reply l tag .ok (flagBytes (s.link l).flags)
  | _ => s.refuse l tag .badLength

/-- EVMASK (R185). -/
def State.evmask (s : State) (l : LinkId) (tag : Byte) (payload : List Byte) : State :=
  match payload with
  | [w1, w0] =>
    if namesNoFlag l (flagWord w1 w0) then s.refuse l tag .badField
    else
      (s.modLink l fun k => { k with mask := flagWord w1 w0 }).reply l tag .ok
        (flagBytes (s.link l).flags)
  | _ => s.refuse l tag .badLength

/-! ### WDRAW (R176) -/

/-- WDRAW: the waiting request replies WITHDRAWN, its operation goes on as posted, then WDRAW replies
(R176). -/
def State.wdraw (s : State) (l : LinkId) (tag : Byte) (payload : List Byte) : State :=
  if payload ≠ [] then s.refuse l tag .badLength
  else
    match (s.link l).busy with
    | some (.waiting t _) =>
      ((s.reply l t .withdrawn []).setBusy l none).reply l tag .ok []
    | _ => s.refuse l tag .wrongState

/-! ### PRRESET (R178) -/

/-- The presence before the Press Reset's probe is known unless a probe that did not know it is still in
progress (R92; log 16). -/
def presenceKnown : Option Probe → Bool
  | some (.plain known) => known
  | _ => true

/-- A lane at Press Reset, its probe begun at once (R92, R116, R156). The new identify ends the exchange in
progress: an answer to an earlier identify, a reply to an earlier load, is no longer awaited (R153). -/
def Lane.pressReset (ln : Lane) : Lane :=
  Lane.identify { ln with
    head := if ln.head = .absent then .absent else .off
    probe := some (.plain (presenceKnown ln.probe))
    warmTimer := none
    settleTimer := none
    retryTimer := false
    slewTimer := none
    park := none
    fire := none
    fireOpen := false
    load := none
    noReply := 0
    check := 0
    drive := 0
    retries := 0
    nozzles := ln.nozzles.map fun x => { x with acc := 0, idle := 0 } }

/-- A bar at Press Reset (R92, R170). -/
def Bar.pressReset (x : Bar) : Bar :=
  { x with next := .idle, darkReported := false, gapPlay := none, checkSlot := none }

/-- The arbiter at Press Reset: the write is abandoned, and the model frees the store at once; a lane read
that is running runs to its end (R12, R21, R83, R92; DEDUCED, log 15). -/
def StoreAccess.pressReset : StoreAccess → StoreAccess
  | .write => .free
  | x => x

/-- The waiting request of the Service link, then the ROWPUT of the Image link, reply ABORTED (R12, R178;
log 26). -/
def State.abortRequests (s : State) : State :=
  let s := match (s.link .service).busy with
    | some (.waiting tag _) => (s.setBusy .service none).reply .service tag .aborted []
    | _ => s
  match (s.link .image).busy with
  | some (.rowput tag ..) => (s.setBusy .image none).reply .image tag .aborted []
  | _ => s

/-- An assembler set to IDLE: a partial packet is discarded without count (R172, R178). -/
def State.idleAssembler (s : State) (l : LinkId) : State :=
  s.modLink l fun k => { k with assembler := .idle }

/-- Press Reset, on every block together (R21, R46, R64, R92, R116, R156, R170, R178, R187). The lanes' identifies are
recorded in lane order, between the ABORTED replies and PRRESET's own: the model's choice (log 36). -/
def State.pressReset (s : State) : State :=
  let s := s.abortRequests
  let s := s.setRing { s.ring with rows := [], store := s.ring.store.pressReset }
  let s := s.setQueue { s.queue with pages := [], suppress := false }
  let s := s.setPosition { s.position with lastTrigger := none, lastRows := 0 }
  let s := s.setBars (s.bars.map Bar.pressReset)
  let s := s.setLanes (s.lanes.map Lane.pressReset)
  let s := s.setLists { s.lists with pending := [], transition := none }
  let s := s.setLibrary { s.library with checks := s.library.checks.filter (·.ended) }
  let s := (s.idleAssembler .image).idleAssembler .motion
  let s := ((s.raise .image .reset).raise .motion .reset).raise .service .reset
  s.setSent (s.sent ++ powerOnIdentifies)

/-- PRRESET (R178). -/
def State.prreset (s : State) (l : LinkId) (tag : Byte) (payload : List Byte) : State :=
  if payload ≠ [] then s.refuse l tag .badLength
  else s.pressReset.reply l tag .ok []

end Sys2Proof.Machine
end

