-- ==== Sys2Proof/Machine/Links.lean ====
section
/-! DEFINITION. The Link Interface: request numbers and link rights, the checks before a request acts, the packet
assembler, and the delivery of what an earlier command has raised (chapter 09; log 3, 4, 5). -/

namespace Sys2Proof.Machine

/-! ### Request numbers and rights (R177) -/

/-- Whether a defined request may be sent on a link (R177, request summary). -/
def permitted (number : Nat) : LinkId → Bool
  | .image => decide (number ≤ 6) || decide (34 ≤ number)
  | .motion => (decide (8 ≤ number) && decide (number ≤ 12)) || decide (34 ≤ number)
  | .service => decide (16 ≤ number)

/-- Whether a request number is defined (R177). -/
def definedNumber (number : Nat) : Bool :=
  (decide (1 ≤ number) && decide (number ≤ 6)) || (decide (8 ≤ number) && decide (number ≤ 12)) ||
    (decide (16 ≤ number) && decide (number ≤ 39))

/-- Whether a request in progress turns a request away BUSY: never WDRAW (39), and PRRESET (33) only where
the request in progress is not a waiting one (R174). -/
def blocks (number : Nat) : Option InProgress → Bool
  | none => false
  | some (.waiting ..) => number != 39 && number != 33
  | some _ => number != 39

/-- Checks 1 to 4 of R173: the first that fails, none if the request goes on to its own checks. -/
def State.turnedAway (s : State) (l : LinkId) (tag : Byte) (number : Nat) : Option Status :=
  if tag = 0 then some .badField
  else if !definedNumber number then some .unknown
  else if !permitted number l then some .notPermitted
  else if blocks number (s.link l).busy then some .busy
  else none

/-- What a request does once it has passed checks 1 to 4. -/
abbrev Act := State → LinkId → Byte → List Byte → State

/-- A request is taken (R173). -/
def State.take (s : State) (l : LinkId) (tag : Byte) (number : Nat) (act : Act) (payload : List Byte) :
    State :=
  match s.turnedAway l tag number with
  | some st => s.refuse l tag st
  | none => act s l tag payload

/-- The request of a number (R177); an undefined number is turned away before it acts. -/
def actOf : Nat → Act
  | 1 => State.pgopen | 2 => State.rowput | 3 => State.rowskip | 4 => State.pgcancel
  | 5 => State.pgretire | 6 => State.ringmark
  | 8 => State.lnsetup | 9 => State.lnzero | 10 => State.trig | 11 => State.suppr | 12 => State.pgabort
  | 16 => State.geoset | 17 => State.barset | 18 => State.hdon | 19 => State.hdoff | 20 => State.hdpark
  | 21 => State.hdrein | 22 => State.lanescan | 23 => State.drvset | 24 => State.nzedit
  | 25 => State.nzcommit | 26 => State.nzdrop | 27 => State.nzread | 28 => State.ptnew
  | 29 => State.ptrow | 30 => State.ptdel | 31 => State.ptlist | 32 => State.chkprint
  | 33 => State.prreset
  | 34 => State.statrd | 35 => State.pgstat | 36 => State.evrd | 37 => State.evclr | 38 => State.evmask
  | 39 => State.wdraw
  | _ => fun s _ _ _ => s

/-- A packet whose check is good is taken, and its link's assembler returns to IDLE (R173). -/
def State.takePacket (s : State) (l : LinkId) (tag : Byte) (number : Nat) (payload : List Byte) : State :=
  (s.idleAssembler l).take l tag number (actOf number) payload

/-! ### The packet assembler (R172, R173) -/

/-- A packet with a wrong check byte (R173). -/
def State.badCheck (s : State) (l : LinkId) : State :=
  (s.modLink l fun k =>
    { k with assembler := .idle, badCheck := satAdd max16 k.badCheck 1 }).reply l 0 .badCheck []

/-- A packet is discarded and counted (R172). -/
def State.discardPacket (s : State) (l : LinkId) : State :=
  s.modLink l fun k => { k with assembler := .idle, discarded := satAdd max16 k.discarded 1 }

/-- Whether the last of a packet's bytes is the check over those before it (R171, R173). -/
def goodCheck (bytes : List Byte) : Bool := bytes.getLast? == some (crc8 bytes.dropLast)

/-- The check of a packet is made over the bytes from tag to check byte (R173). -/
def State.checkPacket (s : State) (l : LinkId) (bytes : List Byte) : State :=
  match bytes with
  | tag :: _ :: _ :: number :: rest =>
    if goodCheck bytes then s.takePacket l tag number.toNat rest.dropLast else s.badCheck l
  | _ => s.badCheck l

/-- The assembler after a byte collected in RECEIVING: CHECKING when it is the check byte (R172). -/
def collected (bytes : List Byte) : Assembler :=
  match bytes with
  | _ :: hi :: lo :: _ =>
    if u16 hi lo ≤ Config.maxPayload ∧ bytes.length = u16 hi lo + 5 then .checking bytes
    else .receiving bytes
  | _ => .receiving bytes

/-- The assembler after a byte (R172). -/
def Assembler.byte (x : Assembler) (b : Byte) : Assembler :=
  match x with
  | .idle => if b = 0x5C then .receiving [] else .idle
  | .receiving bs => collected (bs ++ [b])
  | .checking bs => .checking bs

/-- PACKET_BYTE: a byte arrives on a link (R172). -/
def State.packetByte (s : State) (l : LinkId) (b : Byte) : State :=
  s.modLink l fun k => { k with assembler := k.assembler.byte b }

/-- PACKET_INACTIVITY_TIMEOUT: 2 ms without a byte in RECEIVING (R172). -/
def State.inactivity (s : State) (l : LinkId) : State :=
  match (s.link l).assembler with
  | .receiving _ => s.discardPacket l
  | _ => s

/-! ### What an earlier command has raised (log 3, 4, 5) -/

/-- Whether the collected bytes end with a length field above 1040 (R172). -/
def overlong : List Byte → Bool
  | [_, hi, lo] => decide (Config.maxPayload < u16 hi lo)
  | _ => false

/-- A link's packet that is due: its discard at the length byte, or its check (R172, R173). -/
def State.settleLink (s : State) (l : LinkId) : State :=
  match (s.link l).assembler with
  | .idle => s
  | .receiving bytes => if overlong bytes then event (·.discardPacket l) s else s
  | .checking bytes => event (·.checkPacket l bytes) s

/-- A raised line tick is delivered (R52). -/
def State.settleTick (s : State) : State := if s.position.tickRaised then event State.lineTick s else s

/-- A raised automatic trigger is delivered (R57). -/
def State.settleAuto (s : State) : State := if s.position.autoRaised then event State.autoTrigger s else s

/-- Everything that an earlier command has raised takes place, before another command but POWER_ON is taken (log
24): a line tick, then an automatic trigger, then the due packet of each link. -/
def State.settle (s : State) : State :=
  (((s.settleTick.settleAuto).settleLink .image).settleLink .motion).settleLink .service

/-- A command that is the due packet itself takes it from the assembler, so that it is taken once. -/
def State.claim (s : State) (l : LinkId) (mine : Assembler → Bool) : State :=
  if mine (s.link l).assembler then s.idleAssembler l else s

/-- An event after everything raised before it. -/
def State.after (f : State → State) (s : State) : State := event f s.settle

/-- A request arrives whole and is taken (R171, R173). -/
def State.request (s : State) (l : LinkId) (tag : Byte) (number : Nat) (act : Act) (payload : List Byte) :
    State :=
  (s.claim l (· == .checking (packetBody tag (be8 number) payload))).after fun s =>
    (s.idleAssembler l).take l tag number act payload

/-- A packet of a link is being checked and its check byte is wrong. -/
def Assembler.isBad : Assembler → Bool
  | .checking bytes => !goodCheck bytes
  | _ => false

/-- A packet of a link has a length field above 1040. -/
def Assembler.isOverlong : Assembler → Bool
  | .receiving bytes => overlong bytes
  | _ => false

end Sys2Proof.Machine
end

