-- ==== Sys2Proof/Machine/RequestCommands.lean ====
section
/-! DEFINITION. The meanings of the 35 requests: each is taken on its link under its number (R173, R177) and acts
as its chapter lays down. -/

namespace Sys2Proof.Machine

/-- What a command answers. No command of this block stops. -/
abbrev Answer := Host.Outcome State Fault Refusal

/-- PGOPEN (R26, R27). -/
def execPgopen (l : LinkId) (tag : Byte) (payload : List Byte) (s : State) : Answer :=
  .next (s.request l tag 1 State.pgopen payload)

/-- ROWPUT (R8 to R10). -/
def execRowput (l : LinkId) (tag : Byte) (payload : List Byte) (s : State) : Answer :=
  .next (s.request l tag 2 State.rowput payload)

/-- ROWSKIP (R13). -/
def execRowskip (l : LinkId) (tag : Byte) (payload : List Byte) (s : State) : Answer :=
  .next (s.request l tag 3 State.rowskip payload)

/-- PGCANCEL (R36). -/
def execPgcancel (l : LinkId) (tag : Byte) (payload : List Byte) (s : State) : Answer :=
  .next (s.request l tag 4 State.pgcancel payload)

/-- PGRETIRE (R39). -/
def execPgretire (l : LinkId) (tag : Byte) (payload : List Byte) (s : State) : Answer :=
  .next (s.request l tag 5 State.pgretire payload)

/-- RINGMARK (R14). -/
def execRingmark (l : LinkId) (tag : Byte) (payload : List Byte) (s : State) : Answer :=
  .next (s.request l tag 6 State.ringmark payload)

/-- LNSETUP (R58, R59). -/
def execLnsetup (l : LinkId) (tag : Byte) (payload : List Byte) (s : State) : Answer :=
  .next (s.request l tag 8 State.lnsetup payload)

/-- LNZERO (R60). -/
def execLnzero (l : LinkId) (tag : Byte) (payload : List Byte) (s : State) : Answer :=
  .next (s.request l tag 9 State.lnzero payload)

/-- TRIG (R54, R56). -/
def execTrig (l : LinkId) (tag : Byte) (payload : List Byte) (s : State) : Answer :=
  .next (s.request l tag 10 State.trig payload)

/-- SUPPR (R41). -/
def execSuppr (l : LinkId) (tag : Byte) (payload : List Byte) (s : State) : Answer :=
  .next (s.request l tag 11 State.suppr payload)

/-- PGABORT (R37). -/
def execPgabort (l : LinkId) (tag : Byte) (payload : List Byte) (s : State) : Answer :=
  .next (s.request l tag 12 State.pgabort payload)

/-- GEOSET (R66, R67). -/
def execGeoset (l : LinkId) (tag : Byte) (payload : List Byte) (s : State) : Answer :=
  .next (s.request l tag 16 State.geoset payload)

/-- BARSET (R68). -/
def execBarset (l : LinkId) (tag : Byte) (payload : List Byte) (s : State) : Answer :=
  .next (s.request l tag 17 State.barset payload)

/-- HDON (R73). -/
def execHdon (l : LinkId) (tag : Byte) (payload : List Byte) (s : State) : Answer :=
  .next (s.request l tag 18 State.hdon payload)

/-- HDOFF (R75). -/
def execHdoff (l : LinkId) (tag : Byte) (payload : List Byte) (s : State) : Answer :=
  .next (s.request l tag 19 State.hdoff payload)

/-- HDPARK (R76). -/
def execHdpark (l : LinkId) (tag : Byte) (payload : List Byte) (s : State) : Answer :=
  .next (s.request l tag 20 State.hdpark payload)

/-- HDREIN (R152). -/
def execHdrein (l : LinkId) (tag : Byte) (payload : List Byte) (s : State) : Answer :=
  .next (s.request l tag 21 State.hdrein payload)

/-- LANESCAN (R72). -/
def execLanescan (l : LinkId) (tag : Byte) (payload : List Byte) (s : State) : Answer :=
  .next (s.request l tag 22 State.lanescan payload)

/-- DRVSET (R141, R143). -/
def execDrvset (l : LinkId) (tag : Byte) (payload : List Byte) (s : State) : Answer :=
  .next (s.request l tag 23 State.drvset payload)

/-- NZEDIT (R98, R99). -/
def execNzedit (l : LinkId) (tag : Byte) (payload : List Byte) (s : State) : Answer :=
  .next (s.request l tag 24 State.nzedit payload)

/-- NZCOMMIT (R102 to R104). -/
def execNzcommit (l : LinkId) (tag : Byte) (payload : List Byte) (s : State) : Answer :=
  .next (s.request l tag 25 State.nzcommit payload)

/-- NZDROP (R100). -/
def execNzdrop (l : LinkId) (tag : Byte) (payload : List Byte) (s : State) : Answer :=
  .next (s.request l tag 26 State.nzdrop payload)

/-- NZREAD (R101). -/
def execNzread (l : LinkId) (tag : Byte) (payload : List Byte) (s : State) : Answer :=
  .next (s.request l tag 27 State.nzread payload)

/-- PTNEW (R158). -/
def execPtnew (l : LinkId) (tag : Byte) (payload : List Byte) (s : State) : Answer :=
  .next (s.request l tag 28 State.ptnew payload)

/-- PTROW (R159). -/
def execPtrow (l : LinkId) (tag : Byte) (payload : List Byte) (s : State) : Answer :=
  .next (s.request l tag 29 State.ptrow payload)

/-- PTDEL (R160). -/
def execPtdel (l : LinkId) (tag : Byte) (payload : List Byte) (s : State) : Answer :=
  .next (s.request l tag 30 State.ptdel payload)

/-- PTLIST (R169). -/
def execPtlist (l : LinkId) (tag : Byte) (payload : List Byte) (s : State) : Answer :=
  .next (s.request l tag 31 State.ptlist payload)

/-- CHKPRINT (R167). -/
def execChkprint (l : LinkId) (tag : Byte) (payload : List Byte) (s : State) : Answer :=
  .next (s.request l tag 32 State.chkprint payload)

/-- PRRESET (R178). -/
def execPrreset (l : LinkId) (tag : Byte) (payload : List Byte) (s : State) : Answer :=
  .next (s.request l tag 33 State.prreset payload)

/-- STATRD (R186). -/
def execStatrd (l : LinkId) (tag : Byte) (payload : List Byte) (s : State) : Answer :=
  .next (s.request l tag 34 State.statrd payload)

/-- PGSTAT (R40). -/
def execPgstat (l : LinkId) (tag : Byte) (payload : List Byte) (s : State) : Answer :=
  .next (s.request l tag 35 State.pgstat payload)

/-- EVRD (R183). -/
def execEvrd (l : LinkId) (tag : Byte) (payload : List Byte) (s : State) : Answer :=
  .next (s.request l tag 36 State.evrd payload)

/-- EVCLR (R184). -/
def execEvclr (l : LinkId) (tag : Byte) (payload : List Byte) (s : State) : Answer :=
  .next (s.request l tag 37 State.evclr payload)

/-- EVMASK (R185). -/
def execEvmask (l : LinkId) (tag : Byte) (payload : List Byte) (s : State) : Answer :=
  .next (s.request l tag 38 State.evmask payload)

/-- WDRAW (R176). -/
def execWdraw (l : LinkId) (tag : Byte) (payload : List Byte) (s : State) : Answer :=
  .next (s.request l tag 39 State.wdraw payload)

end Sys2Proof.Machine
end

