-- ==== Sys2Proof/Machine/EventCommands.lean ====
section
/-! DEFINITION. The meanings of the 23 events: packet events, the web, triggers, timers, lanes, the row store,
power-on. -/

namespace Sys2Proof.Machine

/-- Power-on: every piece of state at its first value (R179). The commands not yet taken, the record of what
was sent, the count of free values and the count of identifies are the model's own and go on (log 24). What an
earlier command has raised and no command has delivered, a line tick, an automatic trigger or a due packet, is
dropped and never takes place: the model's choice (DESIGN CHOICE, log 24). -/
def State.restart (s : State) (a b : Bool) : State :=
  { State.powerOn a b with
    lanes := s.lanes.map fun ln => { Lane.powerOn with identifies := ln.identifies + 1 }
    sent := s.sent ++ powerOnIdentifies
    fresh := s.fresh
    pending := s.pending }

/-- BAD_CHECK (R173). The packet may be the one the link's assembler is checking (log 5). -/
def execBadCheck (l : LinkId) (s : State) : Answer :=
  .next ((s.claim l Assembler.isBad).after (·.badCheck l))

/-- UNKNOWN: a packet whose number names no request is taken (R173, R177). -/
def execUnknown (l : LinkId) (tag number : Byte) (payload : List Byte) (s : State) : Answer :=
  .next ((s.claim l (· == .checking (packetBody tag number payload))).after fun s =>
    s.takePacket l tag number.toNat payload)

/-- PACKET_LENGTH_DISCARD (R172). The packet may be the one the link's assembler holds (log 5). -/
def execPacketLengthDiscard (l : LinkId) (s : State) : Answer :=
  .next ((s.claim l Assembler.isOverlong).after (·.discardPacket l))

/-- PACKET_INACTIVITY_TIMEOUT (R172). -/
def execPacketInactivityTimeout (l : LinkId) (s : State) : Answer :=
  .next (s.after (·.inactivity l))

/-- ENCODER_EDGE: the encoder inputs stand at new levels (R48 to R51). -/
def execEncoderEdge (a b : Bool) (s : State) : Answer :=
  .next (s.after (·.encoderEdge a b))

/-- LINE_TICK: the tick an edge has raised is delivered (R52, R80; log 3). -/
def execLineTick (s : State) : Answer :=
  .next (if s.position.tickRaised then event State.lineTick s else s.settle)

/-- AUTOMATIC_TRIGGER: the trigger the automatic pitch has generated is offered (R57; log 4). -/
def execAutomaticTrigger (s : State) : Answer :=
  .next (if s.settleTick.position.autoRaised then event State.autoTrigger s.settleTick else s.settle)

/-- PDET_RISING_EDGE (R55). -/
def execPdetRisingEdge (s : State) : Answer :=
  .next (s.after State.pdetEdge)

/-- POWER_ON, with the encoder inputs at the levels a and b (R179, R48). It alone delivers nothing that is
raised (log 24). -/
def execPowerOn (a b : Bool) (s : State) : Answer :=
  .next (s.restart a b)

/-- WARM_TIMER_EXPIRY (R74). -/
def execWarmTimerExpiry (h : LaneId) (s : State) : Answer :=
  .next (s.after (·.warmExpiry h))

/-- SETTLE_TIMER_EXPIRY (R75, R77). -/
def execSettleTimerExpiry (h : LaneId) (s : State) : Answer :=
  .next (s.after (·.settleExpiry h))

/-- RETRY_TIMER_EXPIRY (R149). -/
def execRetryTimerExpiry (h : LaneId) (s : State) : Answer :=
  .next (s.after (·.retryExpiry h))

/-- SLEW_TIMER_EXPIRY (R142). -/
def execSlewTimerExpiry (h : LaneId) (s : State) : Answer :=
  .next (s.after (·.slewExpiry h))

/-- IDENTIFY_ANSWER (R70, R71, R145, R149). -/
def execIdentifyAnswer (h : LaneId) (c : NozzleCount) (t : Byte) (s : State) : Answer :=
  .next (s.after (·.identifyAnswer h c.identify c.nozzles t))

/-- IDENTIFY_TIMEOUT (R71, R149). -/
def execIdentifyTimeout (h : LaneId) (s : State) : Answer :=
  .next (s.after (·.identifyTimeout h))

/-- LOAD_REPLY (R84, R110, R145). -/
def execLoadReply (h : LaneId) (number : Byte) (st : LoadStatus) (t : Byte)
    (reports : List NozzleReport) (s : State) : Answer :=
  .next (s.after (·.loadReply h number st t reports))

/-- LOAD_REPLY_TIMEOUT (R84). -/
def execLoadReplyTimeout (h : LaneId) (s : State) : Answer :=
  .next (s.after (·.loadTimeout h))

/-- FIRE_COMPLETE (R85). -/
def execFireComplete (h : LaneId) (number : Byte) (s : State) : Answer :=
  .next (s.after (·.fireComplete h number))

/-- LOAD_SEND (R70, R82, R144). -/
def execLoadSend (h : LaneId) (s : State) : Answer :=
  .next (s.after (·.loadSend h))

/-- ROW_STORE_GRANT (R83). -/
def execRowStoreGrant (s : State) : Answer :=
  .next (s.after State.grant)

/-- ROW_STORE_READ_DONE (R82, R83). -/
def execRowStoreReadDone (s : State) : Answer :=
  .next (s.after State.readDone)

/-- ROWPUT_WRITE_COMPLETE (R11). -/
def execRowputWriteComplete (s : State) : Answer :=
  .next (s.after State.writeComplete)

/-- PACKET_BYTE (R172). -/
def execPacketByte (l : LinkId) (byte : Byte) (s : State) : Answer :=
  .next (s.after (·.packetByte l byte))

end Sys2Proof.Machine
end

