-- ==== Sys2Proof/Machine/Dispatch.lean ====
section
/-! DEFINITION. One arm per command, each one direct call of its meaning. -/

namespace Sys2Proof.Machine

def exec (i : Instr) (s : State) : Host.Outcome State Fault Refusal :=
  match i with
  | .pgopen link tag payload => Sys2Proof.Machine.execPgopen link tag payload s
  | .rowput link tag payload => Sys2Proof.Machine.execRowput link tag payload s
  | .rowskip link tag payload => Sys2Proof.Machine.execRowskip link tag payload s
  | .pgcancel link tag payload => Sys2Proof.Machine.execPgcancel link tag payload s
  | .pgretire link tag payload => Sys2Proof.Machine.execPgretire link tag payload s
  | .ringmark link tag payload => Sys2Proof.Machine.execRingmark link tag payload s
  | .lnsetup link tag payload => Sys2Proof.Machine.execLnsetup link tag payload s
  | .lnzero link tag payload => Sys2Proof.Machine.execLnzero link tag payload s
  | .trig link tag payload => Sys2Proof.Machine.execTrig link tag payload s
  | .suppr link tag payload => Sys2Proof.Machine.execSuppr link tag payload s
  | .pgabort link tag payload => Sys2Proof.Machine.execPgabort link tag payload s
  | .geoset link tag payload => Sys2Proof.Machine.execGeoset link tag payload s
  | .barset link tag payload => Sys2Proof.Machine.execBarset link tag payload s
  | .hdon link tag payload => Sys2Proof.Machine.execHdon link tag payload s
  | .hdoff link tag payload => Sys2Proof.Machine.execHdoff link tag payload s
  | .hdpark link tag payload => Sys2Proof.Machine.execHdpark link tag payload s
  | .hdrein link tag payload => Sys2Proof.Machine.execHdrein link tag payload s
  | .lanescan link tag payload => Sys2Proof.Machine.execLanescan link tag payload s
  | .drvset link tag payload => Sys2Proof.Machine.execDrvset link tag payload s
  | .nzedit link tag payload => Sys2Proof.Machine.execNzedit link tag payload s
  | .nzcommit link tag payload => Sys2Proof.Machine.execNzcommit link tag payload s
  | .nzdrop link tag payload => Sys2Proof.Machine.execNzdrop link tag payload s
  | .nzread link tag payload => Sys2Proof.Machine.execNzread link tag payload s
  | .ptnew link tag payload => Sys2Proof.Machine.execPtnew link tag payload s
  | .ptrow link tag payload => Sys2Proof.Machine.execPtrow link tag payload s
  | .ptdel link tag payload => Sys2Proof.Machine.execPtdel link tag payload s
  | .ptlist link tag payload => Sys2Proof.Machine.execPtlist link tag payload s
  | .chkprint link tag payload => Sys2Proof.Machine.execChkprint link tag payload s
  | .prreset link tag payload => Sys2Proof.Machine.execPrreset link tag payload s
  | .statrd link tag payload => Sys2Proof.Machine.execStatrd link tag payload s
  | .pgstat link tag payload => Sys2Proof.Machine.execPgstat link tag payload s
  | .evrd link tag payload => Sys2Proof.Machine.execEvrd link tag payload s
  | .evclr link tag payload => Sys2Proof.Machine.execEvclr link tag payload s
  | .evmask link tag payload => Sys2Proof.Machine.execEvmask link tag payload s
  | .wdraw link tag payload => Sys2Proof.Machine.execWdraw link tag payload s
  | .badCheck link => Sys2Proof.Machine.execBadCheck link s
  | .unknown link tag number payload => Sys2Proof.Machine.execUnknown link tag number payload s
  | .packetLengthDiscard link => Sys2Proof.Machine.execPacketLengthDiscard link s
  | .packetInactivityTimeout link => Sys2Proof.Machine.execPacketInactivityTimeout link s
  | .encoderEdge a b => Sys2Proof.Machine.execEncoderEdge a b s
  | .lineTick => Sys2Proof.Machine.execLineTick s
  | .automaticTrigger => Sys2Proof.Machine.execAutomaticTrigger s
  | .pdetRisingEdge => Sys2Proof.Machine.execPdetRisingEdge s
  | .powerOn a b => Sys2Proof.Machine.execPowerOn a b s
  | .warmTimerExpiry lane => Sys2Proof.Machine.execWarmTimerExpiry lane s
  | .settleTimerExpiry lane => Sys2Proof.Machine.execSettleTimerExpiry lane s
  | .retryTimerExpiry lane => Sys2Proof.Machine.execRetryTimerExpiry lane s
  | .slewTimerExpiry lane => Sys2Proof.Machine.execSlewTimerExpiry lane s
  | .identifyAnswer lane count temperature => Sys2Proof.Machine.execIdentifyAnswer lane count temperature s
  | .identifyTimeout lane => Sys2Proof.Machine.execIdentifyTimeout lane s
  | .loadReply lane number status temperature reports => Sys2Proof.Machine.execLoadReply lane number status temperature reports s
  | .loadReplyTimeout lane => Sys2Proof.Machine.execLoadReplyTimeout lane s
  | .fireComplete lane number => Sys2Proof.Machine.execFireComplete lane number s
  | .loadSend lane => Sys2Proof.Machine.execLoadSend lane s
  | .rowStoreGrant => Sys2Proof.Machine.execRowStoreGrant s
  | .rowStoreReadDone => Sys2Proof.Machine.execRowStoreReadDone s
  | .rowputWriteComplete => Sys2Proof.Machine.execRowputWriteComplete s
  | .packetByte link byte => Sys2Proof.Machine.execPacketByte link byte s

end Sys2Proof.Machine
end

