-- ==== Sys2Proof/Safety.lean ====
section
/-! DEFINITION. What is said about states and commands: that nothing raised is undelivered, that a link can take a
request, the state a request leaves, that the outputs follow, and the invariants of the blocks. -/

namespace Sys2Proof.Machine

/-- The block goes on: the step answers a next state. -/
def GoesOn (s : State) : Prop := ∃ t, step s = .next t

/-! ### Nothing raised and undelivered (log 3, 4, 5) -/

/-- Nothing of a link's packet is due: no length field above 1040, no check to be made. -/
def Link.quiet (k : Link) : Bool :=
  match k.assembler with
  | .idle => true
  | .receiving bytes => !overlong bytes
  | .checking _ => false

/-- Nothing is raised that has not been delivered: no line tick, no automatic trigger, no due packet. -/
def State.quiet (s : State) : Bool :=
  !s.position.tickRaised && !s.position.autoRaised && s.links.image.quiet && s.links.motion.quiet &&
    s.links.service.quiet

/-! ### Taking a request (R173, R174) -/

/-- A link that has no request in progress, nothing being raised elsewhere, and a tag that is not 0. -/
def State.hears (s : State) (l : LinkId) (tag : Byte) : Prop :=
  s.quiet = true ∧ tag ≠ 0 ∧ (s.link l).busy = none

/-- The state after a request taken on a link had an effect: the link's assembler is IDLE, the outputs follow. -/
def State.taken (s : State) (l : LinkId) (effect : State → State) : State :=
  event (fun u => effect (u.idleAssembler l)) s

/-- The state after a request that only drew a reply: the link's assembler is IDLE, nothing else moved. -/
def State.answers (s : State) (l : LinkId) (tag : Byte) (st : Status) (payload : List Byte) : State :=
  (s.idleAssembler l).reply l tag st payload

/-- A command answers a request's refusal: a reply without payload, and no other change (R173). -/
def Refuses (c : Instr) (s : State) (l : LinkId) (tag : Byte) (st : Status) : Prop :=
  exec c s = .next (s.answers l tag st [])

/-- A command, where nothing was raised before it, is one event with an effect. -/
def Effects (c : Instr) (s : State) (effect : State → State) : Prop := exec c s = .next (event effect s)

/-! ### Outputs (R43, R182) -/

/-- READY and the attention outputs stand as their conditions say. -/
def State.outputsFollow (s : State) : Prop :=
  s.queue.ready = s.readyCondition ∧ ∀ l, (s.link l).attn = (s.link l).attention

/-! ### Invariants of the blocks -/

/-- The Position Unit's fields agree (R47): the accumulator lies below the pitch, the pitch is at least 256, the
encoder stands the reverse depth behind the high-water position, and the row count is 0 while the last trigger
line is absent. -/
def Position.agrees (p : Position) : Prop :=
  p.accumulator < p.pitch ∧ 256 ≤ p.pitch ∧ p.encoder = p.highWater - p.depth ∧
    (p.lastTrigger = none → p.lastRows = 0)

/-- The Page Queue's records (R23, R25): at most 8, with distinct ids; a page that has been triggered stands
before every page that has not; of the pages that have not, the oldest is ARMED and the others are DECLARED. -/
def Queue.ordered (q : Queue) : Prop :=
  q.pages.length ≤ 8 ∧ (q.pages.map (·.id)).Nodup ∧
    ∃ old waiting, q.pages = old ++ waiting ∧
      (∀ p ∈ old, p.state = .printing ∨ p.state = .done ∨ p.state = .aborted) ∧
      (∀ p ∈ waiting.head?, p.state = .armed) ∧ ∀ p ∈ waiting.tail, p.state = .declared

/-! ### Requests as statements speak of them (R171 to R177) -/

/-- The link, tag, request number and payload of a request (R177, request summary). -/
def requestOf : Instr → Option (LinkId × Byte × Nat × List Byte)
  | .pgopen l t p => some (l, t, 1, p)
  | .rowput l t p => some (l, t, 2, p)
  | .rowskip l t p => some (l, t, 3, p)
  | .pgcancel l t p => some (l, t, 4, p)
  | .pgretire l t p => some (l, t, 5, p)
  | .ringmark l t p => some (l, t, 6, p)
  | .lnsetup l t p => some (l, t, 8, p)
  | .lnzero l t p => some (l, t, 9, p)
  | .trig l t p => some (l, t, 10, p)
  | .suppr l t p => some (l, t, 11, p)
  | .pgabort l t p => some (l, t, 12, p)
  | .geoset l t p => some (l, t, 16, p)
  | .barset l t p => some (l, t, 17, p)
  | .hdon l t p => some (l, t, 18, p)
  | .hdoff l t p => some (l, t, 19, p)
  | .hdpark l t p => some (l, t, 20, p)
  | .hdrein l t p => some (l, t, 21, p)
  | .lanescan l t p => some (l, t, 22, p)
  | .drvset l t p => some (l, t, 23, p)
  | .nzedit l t p => some (l, t, 24, p)
  | .nzcommit l t p => some (l, t, 25, p)
  | .nzdrop l t p => some (l, t, 26, p)
  | .nzread l t p => some (l, t, 27, p)
  | .ptnew l t p => some (l, t, 28, p)
  | .ptrow l t p => some (l, t, 29, p)
  | .ptdel l t p => some (l, t, 30, p)
  | .ptlist l t p => some (l, t, 31, p)
  | .chkprint l t p => some (l, t, 32, p)
  | .prreset l t p => some (l, t, 33, p)
  | .statrd l t p => some (l, t, 34, p)
  | .pgstat l t p => some (l, t, 35, p)
  | .evrd l t p => some (l, t, 36, p)
  | .evclr l t p => some (l, t, 37, p)
  | .evmask l t p => some (l, t, 38, p)
  | .wdraw l t p => some (l, t, 39, p)
  | _ => none

/-- A command delivers by itself something an earlier one has raised, so that it does not wait for the rest of it:
POWER_ON, LINE_TICK of a raised tick, AUTOMATIC_TRIGGER of a raised trigger, and the command of a link's due packet
(log 3, 4, 5, 24). -/
def Delivers (c : Instr) (s : State) : Prop :=
  match c with
  | .powerOn _ _ => True
  | .lineTick => s.position.tickRaised = true
  | .automaticTrigger => s.settleTick.position.autoRaised = true
  | .badCheck l => (s.link l).assembler.isBad = true
  | .packetLengthDiscard l => (s.link l).assembler.isOverlong = true
  | .unknown l tag n p => (s.link l).assembler = .checking (packetBody tag n p)
  | c =>
    match requestOf c with
    | some (l, tag, n, p) => (s.link l).assembler = .checking (packetBody tag (be8 n) p)
    | none => False

/-- The request numbers that may be sent on a link (R177, request summary). -/
def numbersOf : LinkId → List Nat
  | .image => [1, 2, 3, 4, 5, 6, 34, 35, 36, 37, 38, 39]
  | .motion => [8, 9, 10, 11, 12, 34, 35, 36, 37, 38, 39]
  | .service => [16, 17, 18, 19, 20, 21, 22, 23, 24, 25, 26, 27, 28, 29, 30, 31, 32, 33, 34, 35, 36,
      37, 38, 39]

/-- A request in progress makes its link answer BUSY to a request number (R174): to all but WDRAW (39), and, where
it is a waiting request, to all but WDRAW and PRRESET (33). -/
def AnswersBusy (n : Nat) : Option InProgress → Prop
  | none => False
  | some (.waiting _ _) => n ≠ 39 ∧ n ≠ 33
  | some _ => n ≠ 39

/-- The byte at an offset of a payload. -/
def byteAt (p : List Byte) (i : Nat) : Nat := (p.getD i 0).toNat

/-- Level j of a byte of packed levels: its bits 2j + 1 and 2j (R180). -/
def packedLevel (x : Byte) (j : Nat) : Level :=
  match x.toNat / 4 ^ j % 4 with
  | 0 => .l0
  | 1 => .l1
  | 2 => .l2
  | _ => .l3

/-- The two-byte field at an offset of a payload, most significant byte first (R180). -/
def wordAt (p : List Byte) (i : Nat) : Nat := 256 * byteAt p i + byteAt p (i + 1)

/-- The four-byte field at an offset of a payload (R180). -/
def longAt (p : List Byte) (i : Nat) : Nat := 65536 * wordAt p i + wordAt p (i + 2)

/-- The signed one-byte field at an offset of a payload (R180). -/
def signedAt (p : List Byte) (i : Nat) : Int :=
  if byteAt p i < 128 then byteAt p i else (byteAt p i : Int) - 256

/-- A character of a name (R157): A to Z, 0 to 9 or '-'. -/
def IsNameCharacter (b : Byte) : Prop :=
  (0x41 ≤ b.toNat ∧ b.toNat ≤ 0x5A) ∨ (0x30 ≤ b.toNat ∧ b.toNat ≤ 0x39) ∨ b.toNat = 0x2D

/-- A bar named by a bar set byte (R180). -/
def NamesBar (set : Nat) (b : BarId) : Prop := set.testBit (barNumber b) = true

/-- A link free to take a request with this tag, the outputs in step. -/
def State.listens (s : State) (l : LinkId) (tag : Byte) : Prop := s.hears l tag ∧ s.outputsFollow

/-- Nothing is raised and undelivered but what one link's assembler holds. -/
def State.quietBut (s : State) (l : LinkId) : Prop := (s.idleAssembler l).quiet = true

/-- A table of checks (R173): the first that fails gives the refusal; a request that passes them all is accepted. -/
def Checked (c : Instr) (s : State) (l : LinkId) (tag : Byte) : List (Prop × Status) → Prop → Prop
  | [], accepted => accepted
  | (fails, st) :: rest, accepted =>
    (fails → Refuses c s l tag st) ∧ (¬fails → Checked c s l tag rest accepted)

/-- A request is accepted, has its effect, and replies OK: one event, READY, ROOM and attention following. -/
def Accepts (c : Instr) (s : State) (l : LinkId) (tag : Byte) (effect : State → State)
    (payload : List Byte) : Prop :=
  exec c s = .next (s.taken l fun u => (effect u).reply l tag .ok payload)

/-- A request is accepted, has its effect and replies OK, and no output and no flag moves beside. -/
def AcceptsPlain (c : Instr) (s : State) (l : LinkId) (tag : Byte) (effect : State → State)
    (payload : List Byte) : Prop :=
  exec c s = .next ((effect (s.idleAssembler l)).reply l tag .ok payload)

/-! ### Words of the blocks that statements use -/

/-- A page id is that of the intake page (R6): the oldest page whose rows delivered is less than its row count and
whose state is not ABORTED. -/
def State.IsIntakeId (s : State) (id : Nat) : Prop :=
  ∃ older p younger, s.queue.pages = older ++ p :: younger ∧ p.id = id ∧ p.delivered < p.rowCount ∧
    p.state ≠ .aborted ∧ ∀ o ∈ older, o.delivered < o.rowCount → o.state = .aborted

/-- A row held whose part for a bar is ABSENT (R8). -/
def State.HeldWithoutPart (s : State) (page row : Nat) (b : BarId) : Prop :=
  ∃ r x, s.row page row = some r ∧ r.parts.get b = some x ∧ x.status = .absent

/-- The rows a ring keeps after a release check (R17): from the oldest end, every row that is finished and has no
write in flight leaves, up to the first that is unfinished or has one. -/
def released (rs : List RowRec) : List RowRec := rs.dropWhile fun r => r.retired && r.writing.isNone

/-- A row's record after a bar's pass (R15): the bar's passed flag is set, and the row is finished when the flags of
every bar of the page's set are. -/
def RowRec.passedAt (r : RowRec) (b : BarId) : RowRec :=
  let parts := r.parts.set b ((r.parts.get b).map fun x => { x with passed := true })
  { r with
    parts := parts
    retired := r.retired || barIds.all fun g =>
      match parts.get g with
      | some x => x.passed
      | none => true }

/-- A row finished with every row of a page (R16). -/
def RowRec.finishedOf (r : RowRec) (page : Nat) : RowRec := if r.page = page then { r with retired := true } else r

/-- A row is held and complete (R3): none of its parts is ABSENT. -/
def RowIsComplete (rs : List RowRec) (page row : Nat) : Prop :=
  ∃ r, rs.find? (fun r => r.page == page && r.row == row) = some r ∧
    ∀ b x, r.parts.get b = some x → x.status ≠ .absent

/-- A bar's load waits for a row that the ring holds complete, with this part for the bar (R3, R4, R82). -/
def State.RowIsReady (s : State) (page row : Nat) (b : BarId) (pl : PageLoad) (x : RowPart) : Prop :=
  (s.bar b).next = .page pl ∧ pl.page = page ∧ pl.row = row ∧ pl.waiting = true ∧
    ∃ r, s.row page row = some r ∧ (∀ g y, r.parts.get g = some y → y.status ≠ .absent) ∧ r.parts.get b = some x

/-- A bar's record of a load that has been handed its row (R81, R134): it waits no more, and keeps what the
assignment counted and whether that was added to the page. -/
def PageLoad.Handed (old new : PageLoad) (suppress : Bool) : Prop :=
  new = { old with waiting := false, lost := new.lost, substituted := new.substituted, added := !suppress }

/-- A head of a bar that is ACTIVE (R81). -/
def State.IsActiveAt (s : State) (b : BarId) (h : LaneId) : Prop :=
  (s.lane h).head = .active ∧ ∃ a, (s.lane h).assign = some a ∧ a.bar = b

/-- What a bar's heads do at step 1 of a tick (R85, R129): every ACTIVE head acts once, under the bar's limit in effect;
`page` is the page of the row, if it is a page's. -/
def State.HeadsAct (s t : State) (b : BarId) (kind : RowKind) (page : Option Nat) (suppressed waiting : Bool) : Prop :=
  ∃ heads : List LaneId, heads.Nodup ∧ (∀ h, h ∈ heads ↔ s.IsActiveAt b h) ∧
    t = heads.foldl (fun u h => u.tickHead kind (s.bar b).inEffect.limit page suppressed waiting h) s

/-- A bar's new load stands in the LOAD latch of each ACTIVE head, whatever it held, and no other head's latch and
nothing else of a lane moves (R81). -/
def State.LoadsBegun (s t : State) (b : BarId) (load : LaneId → HeadLoad) : Prop :=
  ∀ h, (s.IsActiveAt b h → t.lane h = { s.lane h with load := some (load h) }) ∧
    (¬s.IsActiveAt b h → t.lane h = s.lane h)

/-- A page's row as it is created (R2, R15): a status for each bar of the page's set, its passed flags following the
page's progress, finished where every bar has passed it. -/
def createdRow (p : Page) (row : Nat) (st : PartStatus) (writing : Option BarId) : RowRec where
  page := p.id
  row := row
  parts := p.progress.map (Option.map fun next => ⟨st, decide (row < next)⟩)
  retired := barIds.all fun b =>
    match p.progress.get b with
    | some next => decide (row < next)
    | none => true
  writing := writing

/-- An edge of the encoder that moves the pair one step along the A-leading sequence (R48). -/
def IsALeading (oldA oldB a b : Bool) : Prop :=
  (oldA, oldB, a, b) ∈ [(false, false, true, false), (true, false, true, true), (true, true, false, true),
    (false, true, false, false)]

/-- An edge that moves the pair one step back (R48). -/
def IsBLeading (oldA oldB a b : Bool) : Prop := IsALeading a b oldA oldB

/-- A forward edge under a direction sense (R49). -/
def IsForward (swapped oldA oldB a b : Bool) : Prop :=
  if swapped then IsBLeading oldA oldB a b else IsALeading oldA oldB a b

/-- A reverse edge under a direction sense (R49). -/
def IsReverse (swapped oldA oldB a b : Bool) : Prop :=
  if swapped then IsALeading oldA oldB a b else IsBLeading oldA oldB a b

/-- A trigger is early at a line (R28): the last trigger line is present and lies less than the larger of its row
count and the holdoff behind. -/
def Position.IsEarly (p : Position) : Prop :=
  ∃ t, p.lastTrigger = some t ∧ (p.line - t).toNat < max p.lastRows p.holdoff

/-- The Row Ring's invariant (R1, R17): at most 2,048 records, and no row due for release at the oldest end. -/
def Ring.settled (r : Ring) : Prop :=
  r.rows.length ≤ 2048 ∧ ∀ x ∈ r.rows.head?, ¬(x.retired = true ∧ x.writing = none)

/-- A geometry whose slots and overlaps fit (R65, R66 check 3): no bar and slot given twice, slots without holes,
each overlap of 0 to 64 columns, every enabled bar with a lane. -/
def GeometryFits (asg : PerLane (Option Assign)) (enabled : BarId → Prop) : Prop :=
  (∀ h h' x y, asg.get h = some x → asg.get h' = some y → x.bar = y.bar → x.slot = y.slot → h = h') ∧
  (∀ h x, asg.get h = some x → ∀ k, k < x.slot → ∃ h' y, asg.get h' = some y ∧ y.bar = x.bar ∧ y.slot = k) ∧
  (∀ h h' x y, asg.get h = some x → asg.get h' = some y → x.bar = y.bar → y.slot = x.slot + 1 →
    x.first + 960 ≤ y.first ∧ y.first ≤ x.first + 1024) ∧
  ∀ b, enabled b → ∃ h x, asg.get h = some x ∧ x.bar = b

/-- A head that is WARMING, ACTIVE, SETTLING or in RECOVERY: it holds the geometry and refuses a scan (R66, R72). -/
def HeadState.IsBusy (x : HeadState) : Prop :=
  x = .warming ∨ x = .active ∨ (∃ y, x = .settling y) ∨ x = .recovery

/-- An accepted request with a reply mode (R175): under WAIT it is held in progress, under POST it replies OK. -/
def State.heldOrAnswered (s : State) (tag : Byte) (wait : Prop) [Decidable wait] (op : WaitOp) : State :=
  if wait then s.setBusy .service (some (.waiting tag op)) else s.reply .service tag .ok []

/-- The nozzle table's size (R93): 1,024 entries for every lane. -/
def State.tableWhole (s : State) : Prop := ∀ h, (s.lane h).nozzles.length = 1024

/-- The pattern directory (R157): at most 24 entries of distinct names, of 1 to 256 rows, their extents disjoint within
the 1,024 memory rows. -/
def Library.ordered (x : Library) : Prop :=
  x.directory.length ≤ 24 ∧ (x.directory.map (·.name)).Nodup ∧
    (∀ e ∈ x.directory, 1 ≤ e.rows ∧ e.rows ≤ 256 ∧ e.start + e.rows ≤ 1024) ∧
    x.directory.Pairwise fun d e => d.start + d.rows ≤ e.start ∨ e.start + e.rows ≤ d.start

/-- A run of memory rows lies in no extent and within the memory (R157). -/
def FreeRun (dir : List Pattern) (start n : Nat) : Prop :=
  start + n ≤ 1024 ∧ ∀ e ∈ dir, start + n ≤ e.start ∨ e.start + e.rows ≤ start

/-- The row a PRINTING page gives a bar of its set at a line (R32, R79): line less trigger line less offset, modulo
2^32, where that is less than the row count. -/
def Page.Gives (p : Page) (b : BarId) (offset : Nat) (line : Line) (r : Nat) : Prop :=
  p.state = .printing ∧ p.progress.get b ≠ none ∧ r < p.rowCount ∧
    ∃ t, p.trigger = some t ∧ (line - t - BitVec.ofNat 32 offset).toNat = r

end Sys2Proof.Machine
end

