-- ==== Sys2Proof/Certificates/Slice0/Obligations.lean ====
section
/-! DEFINITION. The statements of this model. In each, `s.listens l tag` says that a link can take a request now and
that the outputs are in step; `Checked` is a table of checks in its order; `wordAt`, `byteAt` read a payload at an
offset. -/

open Sys2Proof Sys2Proof.Machine

/-! ### Steps -/

/-- One step takes the front command and is its meaning over the rest of the queue; an empty queue, with nothing
raised, leaves the state (log 6, the model's own). -/
def Obligations.StepTakesTheFrontCommand : Prop :=
  ∀ s : State,
    (∀ c rest, step (s.setPending (c :: rest)) = exec c (s.setPending rest)) ∧
    (s.quiet = true → step (s.setPending []) = .next (s.setPending []))

/-- Every command, in every state, answers a next state: no command of this block stops. And it acts on the state in
which everything raised before it has taken place, a line tick first, then an automatic trigger, then the due packets
of the links in the order Image, Motion, Service, unless it delivers something raised itself. The raising and the order
are the model's choice (log 3, 4, 5, 24). -/
def Obligations.EveryCommandCompletes : Prop :=
  (∀ (c : Instr) (s : State), ∃ t, exec c s = .next t) ∧
  (∀ (c : Instr) (s : State), ¬Delivers c s → exec c s = exec c s.settle) ∧
  (∀ (c : Instr) (s : State) l tag n p, requestOf c = some (l, tag, n, p) →
    (s.link l).assembler = .checking (packetBody tag (BitVec.ofNat 8 n) p) →
    exec c s = exec c (s.idleAssembler l) ∧
    (s.quietBut l → exec c (s.idleAssembler l) = .next s.settle)) ∧
  ∀ s : State,
    s.settle.quiet = true ∧ (s.quiet = true → s.settle = s) ∧
    (s.position.tickRaised = true → ∀ t, exec .lineTick s = .next t → s.settle = t.settle) ∧
    (s.position.tickRaised = false → s.position.autoRaised = true → ∀ t, exec .automaticTrigger s = .next t →
      s.settle = t.settle) ∧
    (s.position.tickRaised = false → s.position.autoRaised = false →
      s.settle = ((s.settleLink .image).settleLink .motion).settleLink .service)

/-! ### Power-on -/

/-- POWER_ON: every piece of state at its first value (R20, R45, R63, R91, R115, R155, R170, R179, R187). The model's
choices are: the kept queue, the kept count of free values, and that what is raised is dropped (log 24), the free row
store (log 30), the lowered marks of what is raised (log 3), the count of identifies (log 16), the identifies recorded
in lane order (log 36), the encoder's levels as operands (log 7). -/
def Obligations.PowerOnSetsEveryBlock : Prop :=
  (∀ (a b : Bool) (s : State), ∃ t, exec (.powerOn a b) s = .next t ∧
     t.ring.rows = [] ∧ t.freeSlots = 2048 ∧ t.ring.roomMark = 256 ∧ t.ring.store = .free ∧
     (∀ l, (t.link l).flags = 0) ∧ (∀ l, (t.link l).busy = none) ∧
     t.sent = s.sent ++ laneIds.map (fun h => Sent.head h .identify) ∧
     t.queue = { pages := [], suppress := false, readyMargin := 64, ready := false } ∧
     t.position =
       { encoder := 0, highWater := 0, depth := 0, accumulator := 0, line := 0, pitch := 256, swapped := false,
         source := .pdet, holdoff := 0, autoPitch := 0, lastTrigger := none, lastRows := 0, taken := 0,
         early := 0, empty := 0, reverseTotal := 0, overspeed := 0, encA := a, encB := b,
         tickRaised := false, autoRaised := false }) ∧
  (∀ (a b : Bool) (s : State), ∃ t, exec (.powerOn a b) s = .next t ∧
     (∀ h, (t.lane h).nozzles = List.replicate 1024 ⟨.good, none, 0, 0, 0⟩) ∧
     t.lists = { pending := [], transition := none, stage := 0, superseded := 0 } ∧
     (∀ h, (t.lane h).assign = none ∧ (t.lane h).head = .absent ∧ (t.lane h).probe = some (.plain false) ∧
       (t.lane h).warmTime = .ms40 ∧ (t.lane h).fire = none ∧ (t.lane h).fireOpen = false ∧
       (t.lane h).load = none ∧ (t.lane h).park = none ∧ (t.lane h).noReply = 0 ∧ (t.lane h).check = 0 ∧
       (t.lane h).number = 0 ∧ (t.lane h).drive = 0 ∧ (t.lane h).target = 0 ∧ (t.lane h).step = 0 ∧
       (t.lane h).interval = .ms1 ∧ (t.lane h).slewTimer = none ∧ (t.lane h).retryTimer = false ∧
       (t.lane h).temperature = 0 ∧ (t.lane h).limit = 70 ∧ (t.lane h).lastFault = none ∧
       (t.lane h).retries = 0 ∧ (t.lane h).exchange = some .identify ∧
       (t.lane h).identifies = (s.lane h).identifies + 1) ∧
     (∀ x, (t.bar x).enabled = false ∧ (t.bar x).offset = 0 ∧
       (t.bar x).asSet = ⟨.blank, .midpoint, .off, 500⟩ ∧ (t.bar x).inEffect = ⟨.blank, .midpoint, .off, 500⟩ ∧
       (t.bar x).next = .idle ∧ (t.bar x).darkReported = false ∧ (t.bar x).gapPlay = none ∧
       (t.bar x).checkSlot = none) ∧
     t.library.directory = [] ∧ t.library.checks = [] ∧ t.library.checkCount = 0 ∧ t.library.truncated = 0 ∧
     (∀ l, (t.link l).assembler = .idle ∧ (t.link l).discarded = 0 ∧ (t.link l).badCheck = 0 ∧
       (t.link l).busy = none ∧ (t.link l).flags = 0 ∧ (t.link l).attn = false) ∧
     (t.link .image).mask = 0x001F ∧ (t.link .motion).mask = 0x003F ∧ (t.link .service).mask = 0x01FF ∧
     t.pending = s.pending ∧ t.fresh = s.fresh)

/-! ### Links and packets -/

/-- Checks 1 to 4 of R173, for every request and for a number that names none: the refusal, and nothing else. -/
def Obligations.RequestsTurnedAway : Prop :=
  ∀ s : State, s.quiet = true → s.outputsFollow →
    (∀ c l tag n p, requestOf c = some (l, tag, n, p) →
      (tag = 0 → Refuses c s l 0 .badField) ∧
      (tag ≠ 0 → n ∉ numbersOf l → Refuses c s l tag .notPermitted) ∧
      (tag ≠ 0 → n ∈ numbersOf l → AnswersBusy n (s.link l).busy → Refuses c s l tag .busy)) ∧
    ∀ l tag (n : Byte) p,
      (n.toNat = 0 ∨ n.toNat = 7 ∨ (13 ≤ n.toNat ∧ n.toNat ≤ 15) ∨ 40 ≤ n.toNat) →
      (tag = 0 → Refuses (.unknown l tag n p) s l 0 .badField) ∧
      (tag ≠ 0 → Refuses (.unknown l tag n p) s l tag .unknown)

/-- The packet assembler (R172, R173): what a byte moves; a wrong check; a discard at the length field and after 2 ms.
The model's choice (log 5): the last byte leaves the packet in checking, the third byte of a length above 1040 leaves
the assembler receiving, and each is acted on before the next command; BAD_CHECK and PACKET_LENGTH_DISCARD stand for a
whole bad packet where none is due. -/
def Obligations.PacketsAreAssembledCheckedAndDiscarded : Prop :=
  (∀ (s : State) (l : LinkId) (b : Byte), s.quiet = true → s.outputsFollow →
     let goes := fun (x : Assembler) => exec (.packetByte l b) s = .next (s.modLink l fun k => { k with assembler := x })
     ((s.link l).assembler = .idle → b = 0x5C → goes (.receiving [])) ∧
     ((s.link l).assembler = .idle → b ≠ 0x5C → exec (.packetByte l b) s = .next s) ∧
     ∀ bytes, (s.link l).assembler = .receiving bytes →
       let more := bytes ++ [b]
       let whole := 3 ≤ more.length ∧ wordAt more 1 ≤ 1040 ∧ more.length = wordAt more 1 + 5
       (whole → goes (.checking more)) ∧ (¬whole → goes (.receiving more))) ∧
  (∀ (s : State) (l : LinkId), s.quietBut l → s.outputsFollow →
     (s.quiet = true ∨
       ∃ bytes, (s.link l).assembler = .checking bytes ∧ bytes.getLast? ≠ some (crc8 bytes.dropLast)) →
     exec (.badCheck l) s =
       .next ((s.modLink l fun k =>
         { k with assembler := .idle, badCheck := min 65535 (k.badCheck + 1) }).reply l 0 .badCheck [])) ∧
  (∀ (s : State) (l : LinkId), s.outputsFollow →
     let gone := s.modLink l fun k => { k with assembler := .idle, discarded := min 65535 (k.discarded + 1) }
     (s.quiet = true → exec (.packetLengthDiscard l) s = .next gone) ∧
     (∀ tag hi lo, s.quietBut l → (s.link l).assembler = .receiving [tag, hi, lo] → 1040 < u16 hi lo →
       exec (.packetLengthDiscard l) s = .next gone ∧ (s.pending = [] → step s = .next gone)) ∧
     (∀ bytes, s.quiet = true → (s.link l).assembler = .receiving bytes →
       exec (.packetInactivityTimeout l) s = .next gone) ∧
     (s.quiet = true → (s.link l).assembler = .idle → exec (.packetInactivityTimeout l) s = .next s))

/-- The bytes of a request's packet, arriving one by one on an IDLE link, are that request: with nothing after them,
the next step takes the request; with the request's own command after them, that command takes the same packet, once.
That the bytes and the request are commands beside each other is the model's choice (log 5). -/
def Obligations.PacketBytesAreTheRequest : Prop :=
  ∀ c l tag n p (s : State), requestOf c = some (l, tag, n, p) → p.length ≤ 1040 →
    s.quiet = true → s.outputsFollow → s.pending = [] → (s.link l).assembler = .idle →
    let bytes := (0x5C :: packetBody tag (BitVec.ofNat 8 n) p).map (Instr.packetByte l)
    Sys2Proof.core.run (bytes.length + 1) (s.setPending bytes) = exec c s ∧
    Sys2Proof.core.run (bytes.length + 1) (s.setPending (bytes ++ [c])) = exec c s

/-! ### Attention and status -/

/-- EVRD, EVCLR and EVMASK on the link they arrive on (R183, R184, R185). -/
def Obligations.EventRequestsActOnTheirLink : Prop :=
  ∀ (s : State) (l : LinkId) (tag : Byte) (p : List Byte), s.listens l tag →
    let k := s.link l
    let w : FlagWord := BitVec.ofNat 16 (wordAt p 0)
    let word := fun (x : FlagWord) => be16 x.toNat
    Checked (.evrd l tag p) s l tag [(p ≠ [], .badLength)]
      (exec (.evrd l tag p) s = .next (s.answers l tag .ok (word k.flags ++ word k.mask))) ∧
    Checked (.evclr l tag p) s l tag [(p.length ≠ 2, .badLength), (w &&& ~~~flagsOf l ≠ 0, .badField)]
      (exec (.evclr l tag p) s =
        .next ((s.modLink l fun k =>
          { k with
            assembler := .idle
            flags := k.flags &&& ~~~w
            attn := (k.flags &&& ~~~w) &&& ~~~k.mask != 0 }).reply l tag .ok (word (k.flags &&& ~~~w)))) ∧
    Checked (.evmask l tag p) s l tag [(p.length ≠ 2, .badLength), (w &&& ~~~flagsOf l ≠ 0, .badField)]
      (exec (.evmask l tag p) s =
        .next ((s.modLink l fun k =>
          { k with assembler := .idle, mask := w, attn := k.flags &&& ~~~w != 0 }).reply l tag .ok
          (word k.flags)))

/-- STATRD: the 105-byte status block, field by field, and no other change (R186, R180). That bits 7..2 of byte 7 are 0
is the model's choice (log 35). -/
def Obligations.StatrdReadsTheStatusBlock : Prop :=
  ∀ (s : State) (l : LinkId) (tag : Byte) (p : List Byte), s.listens l tag →
    Checked (.statrd l tag p) s l tag [(p ≠ [], .badLength)] (∃ r : List Byte,
      exec (.statrd l tag p) s = .next (s.answers l tag .ok r) ∧ r.length = 105 ∧
      wordAt r 0 = s.ring.rows.length % 65536 ∧ wordAt r 2 = (2048 - s.ring.rows.length) % 65536 ∧
      byteAt r 4 = s.queue.pages.length % 256 ∧
      (∀ a, s.queue.pages.find? (·.state == .armed) = some a → wordAt r 5 = a.id % 65536) ∧
      ((∀ q ∈ s.queue.pages, q.state ≠ .armed) → wordAt r 5 = 0) ∧
      byteAt r 7 = (if s.queue.ready then 1 else 0) + (if s.queue.suppress then 2 else 0) ∧
      longAt r 8 = s.position.line.toNat ∧ longAt r 12 = s.position.highWater.toNat ∧
      longAt r 16 = s.position.encoder.toNat ∧
      byteAt r 20 = (match s.position.source with | .pdet => 0 | .link => 1 | .auto => 2) ∧
      wordAt r 21 = s.position.taken % 65536 ∧ wordAt r 23 = s.position.early % 65536 ∧
      wordAt r 25 = s.position.empty % 65536 ∧ longAt r 27 = s.position.reverseTotal.toNat ∧
      wordAt r 31 = s.position.overspeed % 65536 ∧ wordAt r 33 = s.lists.superseded % 65536 ∧
      wordAt r 35 = s.library.truncated % 65536 ∧
      wordAt r 37 = (s.link .image).discarded % 65536 ∧ wordAt r 39 = (s.link .image).badCheck % 65536 ∧
      wordAt r 41 = (s.link .motion).discarded % 65536 ∧ wordAt r 43 = (s.link .motion).badCheck % 65536 ∧
      wordAt r 45 = (s.link .service).discarded % 65536 ∧ wordAt r 47 = (s.link .service).badCheck % 65536 ∧
      ∀ h, let i := 49 + 7 * laneNumber h
        byteAt r i = (match (s.lane h).head with
          | .absent => 0 | .off => 1 | .warming => 2 | .active => 3 | .settling _ => 4 | .parked => 5
          | .recovery => 6 | .failed => 7) ∧
        byteAt r (i + 1) = (s.lane h).drive % 256 ∧
        byteAt r (i + 2) = (s.lane h).target % 256 ∧ byteAt r (i + 3) = (s.lane h).temperature % 256 ∧
        byteAt r (i + 4) = (s.lane h).limit % 256 ∧
        byteAt r (i + 5) = (match (s.lane h).lastFault with
          | none => 0 | some .overtemp => 1 | some .driveFault => 2 | some .laneLoss => 3
          | some .laneError => 4) ∧
        byteAt r (i + 6) = (s.lane h).retries % 256)

/-- PGSTAT: one record of 48 bytes, or the count and every record in declaration order, and no other change (R40,
R180). That bits 7..3 of a record's byte 7 are 0 is the model's choice (log 35). -/
def Obligations.PgstatReadsPageRecords : Prop :=
  (∀ (s : State) (l : LinkId) (tag : Byte) (p : List Byte), s.listens l tag →
    let c := Instr.pgstat l tag p
    let id := wordAt p 0
    Checked c s l tag [(p.length ≠ 2, .badLength), (id ≠ 0 ∧ s.page id = none, .notFound)]
      ((id = 0 → exec c s = .next (s.answers l tag .ok
          (be8 s.queue.pages.length :: s.queue.pages.flatMap pageRecord))) ∧
       ∀ q, id ≠ 0 → s.page id = some q → exec c s = .next (s.answers l tag .ok (pageRecord q)))) ∧
  ∀ q : Page, let r := pageRecord q
    r.length = 48 ∧ wordAt r 0 = q.id % 65536 ∧ wordAt r 2 = q.rowCount % 65536 ∧
    (∀ b, (byteAt r 4).testBit (barNumber b) = (q.progress.get b).isSome) ∧ byteAt r 4 < 16 ∧
    byteAt r 5 = (match q.state with | .declared => 0 | .armed => 1 | .printing => 2 | .done => 3 | .aborted => 4) ∧
    byteAt r 6 = (match q.cause with
      | none => 0 | some .cancelled => 1 | some .motionAbort => 2 | some .underrunHalt => 3) ∧
    byteAt r 7 = (if q.degraded then 1 else 0) + (if q.trigger.isSome then 2 else 0) +
      (if q.gap.isSome then 4 else 0) ∧
    longAt r 8 = (q.trigger.getD 0).toNat ∧ wordAt r 12 = q.delivered % 65536 ∧
    wordAt r 14 = q.complete % 65536 ∧
    (∀ b, wordAt r (16 + 2 * barNumber b) = ((q.progress.get b).getD 0) % 65536) ∧
    wordAt r 24 = q.missedUnderrun % 65536 ∧ wordAt r 26 = q.missedLate % 65536 ∧
    wordAt r 28 = q.missedOverspeed % 65536 ∧ wordAt r 30 = q.suppressed % 65536 ∧
    longAt r 32 = q.lost % 4294967296 ∧ longAt r 36 = q.substituted % 4294967296 ∧
    (∀ n, q.gap = some n → n.length ≤ 8 → r.drop 40 = n ++ List.replicate (8 - n.length) 0) ∧
    (q.gap = none → r.drop 40 = List.replicate 8 0)

/-- What follows every event, whatever its effect: READY by its three conditions, its flag on each change, ROOM where
the free slot count has risen to the mark, the attention outputs, and nothing else (R43, R18, R182). That they follow
once, at the end of an event, is the model's reading (log 25, DEDUCED). -/
def Obligations.OutputsFollowEveryEvent : Prop :=
  ∀ (f : State → State) (s : State), let u := f s
    let t := event f s
    (t.queue.ready = true ↔ ∃ a, u.queue.pages.find? (·.state == .armed) = some a ∧
      (u.queue.readyMargin ≤ a.complete ∨ a.complete = a.rowCount) ∧
      ∀ b, a.progress.get b ≠ none →
        ∃ h x, (u.lane h).assign = some x ∧ x.bar = b ∧ (u.lane h).head = .active) ∧
    (t.link .motion).flags =
      (if t.queue.ready = u.queue.ready then (u.link .motion).flags else (u.link .motion).flags ||| 0x0001) ∧
    (t.link .image).flags =
      (if s.freeSlots < u.ring.roomMark ∧ u.ring.roomMark ≤ u.freeSlots then (u.link .image).flags ||| 0x0008
        else (u.link .image).flags) ∧
    (t.link .service).flags = (u.link .service).flags ∧
    (∀ l, (t.link l).attn = true ↔ (t.link l).flags &&& ~~~(t.link l).mask ≠ 0) ∧
    (∀ l, t.link l = { u.link l with flags := (t.link l).flags, attn := (t.link l).attn }) ∧
    t = ((u.setQueue { u.queue with ready := t.queue.ready }).setLinks t.links)

/-- The outputs stay in step at every step. -/
def Obligations.OutputsStayInStep : Prop :=
  ∀ s t : State, s.outputsFollow → step s = .next t → t.outputsFollow

/-- The state after reset meets every invariant of this file, and a link takes a request there. -/
def Obligations.ResetMeetsTheInvariants : Prop :=
  State.reset.outputsFollow ∧ State.reset.ring.settled ∧ State.reset.position.agrees ∧
    State.reset.queue.ordered ∧ State.reset.tableWhole ∧ State.reset.library.ordered ∧
    Memory.wf State.reset.library.memory = true ∧
    ∀ l tag, tag ≠ 0 → State.reset.listens l tag

/-! ### Pages (chapter 02) -/

/-- PGOPEN: the checks of R26 in order; an accepted one appends the page's record and replies the queue count (R27). -/
def Obligations.PgopenDeclaresAPage : Prop :=
  ∀ (s : State) (tag : Byte) (p : List Byte), s.listens .image tag →
    let c := Instr.pgopen .image tag p
    let id := wordAt p 0
    let rows := wordAt p 2
    let set := byteAt p 4
    let name := p.drop 5
    Checked c s .image tag
      [(p.length < 5 ∨ 13 < p.length, .badLength),
       (id = 0 ∨ rows = 0 ∨ set = 0 ∨ 15 < set, .badField),
       (∃ x ∈ name, ¬IsNameCharacter x, .badField),
       (∃ b, NamesBar set b ∧ (s.bar b).enabled = false, .badField),
       ((∃ q ∈ s.queue.pages, q.id = id) ∨ ∃ r ∈ s.ring.rows, r.page = id, .exists_),
       (8 ≤ s.queue.pages.length, .full),
       (name ≠ [] ∧ ¬∃ e, s.pattern name = some e ∧ e.ready = true, .notFound)]
      (Accepts c s .image tag
        (fun u => u.setPages (u.queue.pages ++
          [{ id := id, rowCount := rows,
             progress := .ofFn fun b => if set.testBit (barNumber b) then some 0 else none,
             gap := if name = [] then none else some name,
             state := if s.queue.pages.any (·.state == .armed) then .declared else .armed,
             trigger := none, delivered := 0, complete := 0, missedUnderrun := 0, missedLate := 0,
             missedOverspeed := 0, suppressed := 0, lost := 0, substituted := 0, degraded := false,
             cause := none }]))
        [be8 (s.queue.pages.length + 1)])

/-- An abort (R35, R16, R90, R107, R108): state and cause, the page's rows finished and released, its loads abandoned, a
transition that names it written and ended with COMMITDONE and the reply of a waiting NZCOMMIT, PGABORT on both links;
a bar whose current page it was has no dark report left (R89); nothing of the web, of other pages or of gap plays
moves. -/
def Obligations.AbortEndsAPage : Prop :=
  ∀ (s : State) (id : Nat) (c : AbortCause) (q : Page), s.page id = some q →
    let t := s.abortPage id c
    t.page id = some { q with state := .aborted, cause := some c } ∧
    (∀ j, j ≠ id → t.page j = s.page j) ∧
    t.ring.rows = released (s.ring.rows.map (·.finishedOf id)) ∧
    t.ring.roomMark = s.ring.roomMark ∧ t.ring.store = s.ring.store ∧
    (∀ h ld r, (t.lane h).load = some ld → ld.row ≠ .page id r) ∧
    (∀ h ld, (s.lane h).load = some ld → (∀ r, ld.row ≠ .page id r) → (t.lane h).load = some ld) ∧
    (∀ b pl, (t.bar b).next = .page pl → pl.page ≠ id) ∧
    (∀ b, (t.bar b).gapPlay = (s.bar b).gapPlay ∧ (t.bar b).checkSlot = (s.bar b).checkSlot) ∧
    (∀ b, let current := fun (p : Page) => p.state = .printing ∧ ∃ n, p.progress.get b = some n ∧ n < p.rowCount
      (∀ older p younger, s.queue.pages = older ++ p :: younger → current p → (∀ o ∈ older, ¬current o) →
        (t.bar b).darkReported = if p.id = id then false else (s.bar b).darkReported) ∧
      ((∀ p ∈ s.queue.pages, ¬current p) → (t.bar b).darkReported = (s.bar b).darkReported)) ∧
    (∀ h, (t.lane h).head = (s.lane h).head ∧ (t.lane h).fire = (s.lane h).fire ∧
      (t.lane h).fireOpen = (s.lane h).fireOpen) ∧
    (∀ x, s.lists.transition = some x → x.page = id →
      t.lists = { s.lists with transition := none } ∧
      (∀ h, (t.lane h).nozzles = writeEdits x.edits h (s.lane h).nozzles) ∧
      (t.link .service).flags = (s.link .service).flags ||| 0x0020 ∧
      (∀ tag, (s.link .service).busy = some (.waiting tag .nzcommit) → (t.link .service).busy = none ∧
        t.sent = s.sent ++ [.reply .service tag .ok (be16 x.edits.length)]) ∧
      ((∀ tag, (s.link .service).busy ≠ some (.waiting tag .nzcommit)) →
        (t.link .service).busy = (s.link .service).busy ∧ t.sent = s.sent)) ∧
    ((∀ x, s.lists.transition = some x → x.page ≠ id) →
      t.lists = s.lists ∧ (∀ h, (t.lane h).nozzles = (s.lane h).nozzles) ∧
      t.link .service = s.link .service ∧ t.sent = s.sent) ∧
    (t.link .image).flags = (s.link .image).flags ||| 0x0002 ∧
    (t.link .motion).flags = (s.link .motion).flags ||| 0x0010 ∧
    t.position = s.position ∧ t.library = s.library

/-- PGCANCEL by the page's state (R36): a PRINTING page is aborted; a DECLARED or ARMED page leaves the queue, its
held rows finished, its loads abandoned, a transition that names it ended, and the next page, the oldest DECLARED one,
armed (R25). That the OK of a waiting NZCOMMIT, on the Service link, is recorded before the PGCANCEL's own is the
model's choice (log 36). -/
def Obligations.PgcancelActsByPageState : Prop :=
  (∀ ps : List Page,
    (∀ older p younger, ps = older ++ p :: younger → p.state = .declared → (∀ o ∈ older, o.state ≠ .declared) →
      armOldest ps = older ++ { p with state := .armed } :: younger) ∧
    ((∀ p ∈ ps, p.state ≠ .declared) → armOldest ps = ps)) ∧
  ∀ (s : State) (tag : Byte) (p : List Byte), s.listens .image tag →
    let c := Instr.pgcancel .image tag p
    let id := wordAt p 0
    Checked c s .image tag [(p.length ≠ 2, .badLength), (s.page id = none, .notFound)]
      (∀ q, s.page id = some q →
        (q.state = .done ∨ q.state = .aborted → Refuses c s .image tag .wrongState) ∧
        (q.state = .printing → Accepts c s .image tag (fun u => u.abortPage id .cancelled) []) ∧
        (q.state = .declared ∨ q.state = .armed → ∃ t, exec c s = .next t ∧
          (q.state = .declared → t.queue.pages = s.queue.pages.filter (·.id != id)) ∧
          (q.state = .armed → t.queue.pages = armOldest (s.queue.pages.filter (·.id != id))) ∧
          t.ring.rows = released (s.ring.rows.map (·.finishedOf id)) ∧
          (∀ h ld r, (t.lane h).load = some ld → ld.row ≠ .page id r) ∧
          (∀ b pl, (t.bar b).next = .page pl → pl.page ≠ id) ∧
          (∀ x, s.lists.transition = some x → x.page = id →
            t.lists = { s.lists with transition := none } ∧
            ∀ h, (t.lane h).nozzles = writeEdits x.edits h (s.lane h).nozzles) ∧
          ((∀ x, s.lists.transition = some x → x.page ≠ id) →
            t.lists = s.lists ∧ t.sent = s.sent ++ [.reply .image tag .ok []]) ∧
          t.sent.getLast? = some (.reply .image tag .ok []) ∧
          t.position = s.position ∧ t.library = s.library))

/-- PGABORT (R37): one PRINTING page, or with page id 0 every PRINTING page, aborted with cause MOTION_ABORT. That the
OK of a waiting NZCOMMIT, on the Service link, is recorded before the PGABORT's own is the model's choice (log 36). -/
def Obligations.PgabortAbortsPrintingPages : Prop :=
  ∀ (s : State) (tag : Byte) (p : List Byte), s.listens .motion tag →
    let c := Instr.pgabort .motion tag p
    let id := wordAt p 0
    Checked c s .motion tag
      [(p.length ≠ 2, .badLength),
       (id ≠ 0 ∧ s.page id = none, .notFound),
       (id ≠ 0 ∧ (∃ q, s.page id = some q ∧ q.state ≠ .printing), .wrongState),
       (id = 0 ∧ (∀ q ∈ s.queue.pages, q.state ≠ .printing), .wrongState)]
      ((id ≠ 0 → Accepts c s .motion tag (fun u => u.abortPage id .motionAbort) []) ∧
       (id = 0 →
        Accepts c s .motion tag (fun u =>
          ((s.queue.pages.filter (·.state == .printing)).map (·.id)).foldl
            (fun v i => v.abortPage i .motionAbort) u) [] ∧
        ((s.queue.pages.map (·.id)).Nodup → ∃ t, exec c s = .next t ∧
          t.queue.pages = s.queue.pages.map fun q =>
            if q.state = .printing then { q with state := .aborted, cause := some .motionAbort } else q)))

/-- PGRETIRE (R39): a DONE or ABORTED page's record leaves the queue; no ring slot and nothing else moves. -/
def Obligations.PgretireRemovesAnEndedPage : Prop :=
  ∀ (s : State) (tag : Byte) (p : List Byte), s.listens .image tag →
    let c := Instr.pgretire .image tag p
    let id := wordAt p 0
    Checked c s .image tag
      [(p.length ≠ 2, .badLength), (s.page id = none, .notFound),
       (∃ q, s.page id = some q ∧ q.state ≠ .done ∧ q.state ≠ .aborted, .wrongState)]
      (Accepts c s .image tag (fun u => u.setPages (u.queue.pages.filter fun q => q.id ≠ id)) [] ∧
        ((s.queue.pages.map (·.id)).Nodup →
          AcceptsPlain c s .image tag (fun u => u.setPages (u.queue.pages.filter fun q => q.id ≠ id)) []))

/-- A trigger that is not taken (R28, R30, R54 to R57): ignored or refused by its source, empty without an ARMED page,
early before the last trigger's rows and holdoff have gone by; each counted with TRIGSKIP and nothing else. An
automatic trigger where none is raised does nothing: the model's choice (log 9). -/
def Obligations.TriggersNotTaken : Prop :=
  ∀ s : State,
    let line := s.position.line
    let none_ := ∀ q ∈ s.queue.pages, q.state ≠ .armed
    let early := (∃ q ∈ s.queue.pages, q.state = .armed) ∧ s.position.IsEarly
    let skip := fun (x : Position) (u : State) => (u.setPosition x).raise .motion .trigskip
    let countEmpty := { s.position with empty := min 65535 (s.position.empty + 1) }
    let countEarly := { s.position with early := min 65535 (s.position.early + 1) }
    (∀ tag p, s.listens .motion tag →
      let c := Instr.trig .motion tag p
      Checked c s .motion tag [(p ≠ [], .badLength), (s.position.source = .pdet, .wrongState)]
        ((none_ → Accepts c s .motion tag (skip countEmpty) (2 :: be32 line.toNat)) ∧
         (early → Accepts c s .motion tag (skip countEarly) (1 :: be32 line.toNat)))) ∧
    (s.quiet = true → s.outputsFollow → s.position.source ≠ .pdet → exec .pdetRisingEdge s = .next s) ∧
    (s.quiet = true → s.position.source = .pdet → none_ → Effects .pdetRisingEdge s (skip countEmpty)) ∧
    (s.quiet = true → s.position.source = .pdet → early → Effects .pdetRisingEdge s (skip countEarly)) ∧
    (s.position.tickRaised = false → s.position.autoRaised = true → none_ →
      Effects .automaticTrigger s (skip
        { countEmpty with
          autoRaised := false
          lastTrigger := s.position.lastTrigger.map fun t => t + BitVec.ofNat 32 s.position.autoPitch
          lastRows := s.position.lastRows - s.position.autoPitch })) ∧
    (s.position.tickRaised = false → s.position.autoRaised = true → early →
      Effects .automaticTrigger s (skip { countEarly with autoRaised := false })) ∧
    (s.quiet = true → exec .automaticTrigger s = .next s)

/-- A taken trigger (R29): the ARMED page is PRINTING at the present line, the last trigger values move, the oldest
DECLARED page is ARMED, and each bar of the page's set with offset 0 begins row 0, the bars in some order (log 2).
What a bar that begins a row does is stated by TicksPassAndLoadByLine. That the OK of a waiting NZCOMMIT whose last
bar switches at the trigger, on the Service link, is recorded before TRIG's own is the model's choice (log 36). -/
def Obligations.TriggerStartsTheArmedPage : Prop :=
  ∀ (s : State) (a : Page), s.queue.pages.find? (·.state == .armed) = some a → ¬s.position.IsEarly →
    let line := s.position.line
    let started := fun (u : State) =>
      (u.setPosition { u.position with
        taken := min 65535 (u.position.taken + 1), lastTrigger := some line, lastRows := a.rowCount }).setPages
        (armOldest (u.queue.pages.map fun q =>
          if q.id = a.id then { q with state := .printing, trigger := some line } else q))
    let effect := fun (order : List BarId) (u : State) =>
      order.foldl (fun v b => v.draw.beginPage b a.id 0) (started u)
    let inSomeOrder := fun (claim : List BarId → Prop) => ∃ order : List BarId, claim order ∧
      order.Perm (barIds.filter fun b => (a.progress.get b).isSome && (s.bar b).offset == 0)
    (∀ tag, s.listens .motion tag → s.position.source ≠ .pdet → inSomeOrder fun order =>
      Accepts (.trig .motion tag []) s .motion tag (effect order) (0 :: be32 line.toNat)) ∧
    (s.quiet = true → s.position.source = .pdet → inSomeOrder fun order =>
      Effects .pdetRisingEdge s (effect order)) ∧
    (s.position.tickRaised = false → s.position.autoRaised = true → inSomeOrder fun order =>
      Effects .automaticTrigger s fun u => effect order (u.setPosition { u.position with autoRaised := false }))

/-! ### The Row Ring (chapter 01) -/

/-- ROWPUT: the checks of R8 in order; then a new row (R9) or a fill (R10), held in progress until its write ends, with
the levels of its packed bytes (R180) and the first column and width the bar has (R5, R65). -/
def Obligations.RowputCreatesOrFillsARow : Prop :=
  (∀ (n : Nat) (bs : List Byte),
    (unpackLevels n bs).length = min n (4 * bs.length) ∧
    ∀ k j x, bs[k]? = some x → j < 4 → 4 * k + j < n → (unpackLevels n bs)[4 * k + j]? = some (packedLevel x j)) ∧
  (∀ (s : State) (b : BarId),
    (∀ h a, (s.lane h).assign = some a → a.bar = b →
      (∀ g x, (s.lane g).assign = some x → x.bar = b → x.slot = a.slot → g = h) →
      (a.slot = 0 → s.barFirst b = a.first) ∧
      (a.slot ≤ 3 → (∀ g x, (s.lane g).assign = some x → x.bar = b → x.slot ≤ a.slot) →
        s.barWidth b = a.first + 1024 - s.barFirst b)) ∧
    ((∀ h a, (s.lane h).assign = some a → a.bar ≠ b) → s.barWidth b = 0)) ∧
  ∀ (s : State) (tag : Byte) (p : List Byte), s.listens .image tag →
    let c := Instr.rowput .image tag p
    let id := wordAt p 0
    let row := wordAt p 2
    Checked c s .image tag
      [(p.length < 5, .badLength), (3 < byteAt p 4, .badField), (s.page id = none, .notFound)]
      (∀ b q, barNumber b = byteAt p 4 → s.page id = some q →
        let isNext := s.IsIntakeId id ∧ row = q.delivered
        let held := fun (u : State) => u.setBusy .image (some (.rowput tag id row b
          ⟨s.barFirst b, unpackLevels (s.barWidth b) (p.drop 5)⟩))
        Checked c s .image tag
          [(q.progress.get b = none, .badField),
           (p.length ≠ 5 + (s.barWidth b + 3) / 4, .badLength),
           (q.rowCount ≤ row, .badField),
           (q.state = .aborted, .wrongState),
           (isNext ∧ 2048 ≤ s.ring.rows.length, .full),
           (¬isNext ∧ ¬s.HeldWithoutPart id row b, .sequence)]
          ((isNext → exec c s = .next (s.taken .image fun u => held
              ((u.setRows (u.ring.rows ++ [createdRow q row .absent (some b)])).modPage id fun x =>
                { x with delivered := x.delivered + 1 }))) ∧
           (¬isNext → exec c s = .next (s.taken .image fun u => held
              (u.modRow id row fun r => { r with writing := some b })))))

/-- The end of a ROWPUT's write (R11, R3, R4, R17): the part is PRESENT, a row it completes counts in its page, due
rows are released, and the ROWPUT replies with the free slot count that then stands. The bars whose loads wait for a
row it completes are handed it (R4, R82). The event with no write in progress does nothing: the model's choice (log
9). -/
def Obligations.RowputWriteCompletes : Prop :=
  (∀ (s : State) tag page row b part, s.quiet = true → s.ring.store = .write →
    (s.link .image).busy = some (.rowput tag page row b part) → ∃ t,
      exec .rowputWriteComplete s = .next t ∧
      (let stored := s.ring.rows.map fun r => if r.page = page ∧ r.row = row then
          { r with
            parts := r.parts.set b ((r.parts.get b).map fun x => { x with status := .present part })
            writing := none }
        else r
      t.ring = { rows := released stored, roomMark := s.ring.roomMark, store := .free } ∧
      (∀ q, s.page page = some q → ∃ q', t.page page = some q' ∧
        q' = { q with
          complete := q'.complete, lost := q'.lost, substituted := q'.substituted, degraded := q'.degraded } ∧
        (RowIsComplete stored page row → q'.complete = q.complete + 1) ∧
        (¬RowIsComplete stored page row → q'.complete = q.complete)) ∧
      (∀ r, stored.find? (fun r => r.page == page && r.row == row) = some r → RowIsComplete stored page row →
        ∀ b pl, (s.bar b).next = .page pl → pl.page = page → pl.row = row → pl.waiting = true →
          r.parts.get b ≠ none → ∃ pl', (t.bar b).next = .page pl' ∧ pl.Handed pl' s.queue.suppress) ∧
      (t.link .image).busy = none ∧
      t.sent = s.sent ++ [.reply .image tag .ok (be16 (2048 - (released stored).length))] ∧
      t.position = s.position ∧ t.lists = s.lists ∧ t.library = s.library)) ∧
  ∀ s : State, s.quiet = true → s.outputsFollow →
    (s.ring.store ≠ .write ∨ ∀ tag page row b part, (s.link .image).busy ≠ some (.rowput tag page row b part)) →
    exec .rowputWriteComplete s = .next s

/-- ROWSKIP: the checks of R13 in order; then a run of complete rows whose parts are BLANK, handed to the bars whose
loads wait for them (R4, R82). -/
def Obligations.RowskipCreatesBlankRows : Prop :=
  ∀ (s : State) (tag : Byte) (p : List Byte), s.listens .image tag →
    let c := Instr.rowskip .image tag p
    let id := wordAt p 0
    let first := wordAt p 2
    let count := wordAt p 4
    Checked c s .image tag
      [(p.length ≠ 6, .badLength), (count = 0 ∨ 256 < count, .badField), (s.page id = none, .notFound)]
      (∀ q, s.page id = some q → Checked c s .image tag
        [(q.rowCount < first + count, .badField), (q.state = .aborted, .wrongState),
         (¬s.IsIntakeId id ∨ first ≠ q.delivered, .sequence),
         (2048 < s.ring.rows.length + count, .full)]
        (∃ t, exec c s = .next t ∧
          (let rows := released (s.ring.rows ++
              (List.range count).map fun i => createdRow q (first + i) .blank none)
          t.ring = { s.ring with rows := rows } ∧
          (∃ q', t.page id = some q' ∧
            q' = { q with
              delivered := q.delivered + count, complete := q.complete + count
              lost := q'.lost, substituted := q'.substituted, degraded := q'.degraded }) ∧
          (∀ i b pl, i < count → (∀ r ∈ s.ring.rows, r.page = id → r.row ≠ first + i) →
            (s.bar b).next = .page pl → pl.page = id → pl.row = first + i → pl.waiting = true →
            q.progress.get b ≠ none → ∃ pl', (t.bar b).next = .page pl' ∧ pl.Handed pl' s.queue.suppress) ∧
          t.sent = s.sent ++ [.reply .image tag .ok (be16 (2048 - rows.length))] ∧
          t.position = s.position ∧ t.lists = s.lists ∧ t.library = s.library)))

/-- Requests that replace one thing: RINGMARK (R14), SUPPR (R41), LNZERO (R60), BARSET (R68), HDREIN (R152), NZDROP
(R100). -/
def Obligations.SettingsAreReplacedAndNothingElse : Prop :=
  (∀ (s : State) (tag : Byte) (p : List Byte), s.listens .image tag →
     let c := Instr.ringmark .image tag p
     Checked c s .image tag [(p.length ≠ 2, .badLength), (wordAt p 0 = 0 ∨ 2048 < wordAt p 0, .badField)]
       (AcceptsPlain c s .image tag (fun u => u.setRing { u.ring with roomMark := wordAt p 0 })
         (be16 (2048 - s.ring.rows.length)))) ∧
  (∀ (s : State) (tag : Byte) (p : List Byte), s.listens .motion tag →
     let c := Instr.suppr .motion tag p
     Checked c s .motion tag [(p.length ≠ 1, .badLength), (1 < byteAt p 0, .badField)]
       (AcceptsPlain c s .motion tag (fun u => u.setQueue { u.queue with suppress := byteAt p 0 = 1 }) [])) ∧
  (∀ (s : State) (tag : Byte) (p : List Byte), s.listens .motion tag →
     let c := Instr.lnzero .motion tag p
     Checked c s .motion tag
       [(p ≠ [], .badLength), (∃ q ∈ s.queue.pages, q.state = .printing, .wrongState)]
       (AcceptsPlain c s .motion tag
         (fun u => u.setPosition
           { u.position with
             encoder := 0, highWater := 0, depth := 0, accumulator := 0, line := 0
             lastTrigger := none, lastRows := 0 })
         [])) ∧
  (∀ (s : State) (tag : Byte) (p : List Byte), s.listens .service tag →
     let c := Instr.barset .service tag p
     Checked c s .service tag
       [(p.length ≠ 6, .badLength),
        (3 < byteAt p 0 ∨ 1 < byteAt p 1 ∨ 1 < byteAt p 2 ∨ 3 < byteAt p 3 ∨ wordAt p 4 = 0 ∨ 4095 < wordAt p 4,
          .badField)]
       (∀ b, barNumber b = byteAt p 0 →
         AcceptsPlain c s .service tag
           (fun u => u.modBar b fun x =>
             { x with asSet :=
                 { policy := if byteAt p 1 = 0 then .blank else .halt
                   handover := if byteAt p 2 = 0 then .midpoint else .interleave
                   keepWet := if byteAt p 3 = 0 then .off else if byteAt p 3 = 1 then .tickle
                     else if byteAt p 3 = 2 then .spitGap else .spitAny
                   limit := wordAt p 4 } })
           [])) ∧
  (∀ (s : State) (tag : Byte) (p : List Byte), s.listens .service tag →
     let c := Instr.hdrein .service tag p
     Checked c s .service tag [(p.length ≠ 1, .badLength), (7 < byteAt p 0, .badField)]
       (∀ h, laneNumber h = byteAt p 0 →
         Checked c s .service tag [((s.lane h).head ≠ .failed, .wrongState)]
           (AcceptsPlain c s .service tag
             (fun u => u.modLane h fun x => { x with head := .off, retries := 0 }) []))) ∧
  (∀ (s : State) (tag : Byte) (p : List Byte), s.listens .service tag →
     let c := Instr.nzdrop .service tag p
     Checked c s .service tag [(p ≠ [], .badLength)]
       (AcceptsPlain c s .service tag (fun u => u.setLists { u.lists with pending := [] })
         (be16 s.lists.pending.length)))

/-- At every step the ring keeps its capacity, and no row due for release stays at its oldest end (R1, R17). -/
def Obligations.RingStaysSettled : Prop :=
  ∀ s t : State, s.ring.settled → step s = .next t → t.ring.settled

/-- At every step the queue keeps its order (R23, R25): at most 8 pages of distinct ids, those triggered before those
not, the oldest of these ARMED and the others DECLARED. -/
def Obligations.QueueStaysOrdered : Prop :=
  ∀ s t : State, s.queue.ordered → step s = .next t → t.queue.ordered

/-! ### The web (chapter 03) -/

/-- An encoder edge (R48 to R51): no count, a forward edge at depth 0 or deeper, a reverse edge; nothing else moves.
A tick it raises only stands raised, the line counter and the bars unmoved by the edge: the model's choice (log 3,
DESIGN CHOICE; R52 has edge and tick at one instant). -/
def Obligations.EncoderEdgeCounts : Prop :=
  ∀ (s : State) (a b : Bool), s.quiet = true → s.outputsFollow →
    let p := s.position
    let held := { p with encA := a, encB := b }
    let goes := fun (q : Position) => exec (.encoderEdge a b) s = .next (s.setPosition q)
    (¬IsForward p.swapped p.encA p.encB a b → ¬IsReverse p.swapped p.encA p.encB a b → goes held) ∧
    (IsForward p.swapped p.encA p.encB a b →
      (p.depth = 0 → goes
        { held with
          encoder := p.encoder + 1
          highWater := p.highWater + 1
          accumulator := if p.pitch ≤ p.accumulator + 256 then p.accumulator + 256 - p.pitch
            else p.accumulator + 256
          tickRaised := decide (p.pitch ≤ p.accumulator + 256) }) ∧
      (p.depth ≠ 0 → goes { held with encoder := p.encoder + 1, depth := p.depth - 1 })) ∧
    (IsReverse p.swapped p.encA p.encB a b →
      (p.depth ≠ 0xFFFFFFFF → goes
        { held with
          encoder := p.encoder - 1, depth := p.depth + 1, reverseTotal := p.reverseTotal + 1 }) ∧
      (p.depth = 0xFFFFFFFF → goes
        { held with
          encoder := p.encoder - 1, highWater := p.highWater - 1, reverseTotal := p.reverseTotal + 1 }))

/-- A line tick (R52, R57, R80): the line counter rises by one, each bar passes, parks and then loads, the bars in some
order (log 2), and the automatic pitch compares. Nothing else of the web moves but the overspeed counter. The model's
choices are that LINE_TICK where no tick is raised does nothing (log 3, DESIGN CHOICE), the free order (log 2) and that
the automatic trigger is raised after the bars' work (log 4, DEDUCED). -/
def Obligations.LineTickDrivesTheBars : Prop :=
  ∀ s : State,
    (s.quiet = true → exec .lineTick s = .next s) ∧
    (s.position.tickRaised = true → ∃ order : List TickTask,
      order.Perm (barIds.map TickTask.pass ++ barIds.map TickTask.loads) ∧
      (∀ b, [TickTask.pass b, TickTask.loads b].Sublist order) ∧
      ∃ u t, u = order.foldl (fun v k => runTickTask k v.draw)
          (s.setPosition { s.position with line := s.position.line + 1, tickRaised := false }) ∧
        exec .lineTick s = .next t ∧ t = event (fun _ => u.setPosition t.position) s ∧
        t.position =
          { s.position with
            line := s.position.line + 1
            tickRaised := false
            autoRaised := t.position.autoRaised
            overspeed := u.position.overspeed } ∧
        (t.position.autoRaised = true ↔ s.position.source = .auto ∧ s.position.autoPitch ≠ 0 ∧
          ∃ x, s.position.lastTrigger = some x ∧
            (s.position.line + 1 - x).toNat = s.position.autoPitch))

/-- LNSETUP: the checks of R58 in order; then every field at once, the accumulator 0 at a new pitch (R59, R44). -/
def Obligations.LnsetupSetsTheLine : Prop :=
  ∀ (s : State) (tag : Byte) (p : List Byte), s.listens .motion tag →
    let c := Instr.lnsetup .motion tag p
    let pitch := wordAt p 0
    let swapped := decide (byteAt p 2 = 1)
    Checked c s .motion tag
      [(p.length ≠ 10, .badLength),
       (pitch < 256 ∨ 1 < byteAt p 2 ∨ 2 < byteAt p 3 ∨ 2048 < wordAt p 8, .badField),
       ((∃ q ∈ s.queue.pages, q.state = .printing) ∧
          (pitch ≠ s.position.pitch ∨ swapped ≠ s.position.swapped), .wrongState)]
      (Accepts c s .motion tag
        (fun u => (u.setPosition
          { u.position with
            pitch := pitch
            accumulator := if pitch = u.position.pitch then u.position.accumulator else 0
            swapped := swapped
            source := if byteAt p 3 = 0 then .pdet else if byteAt p 3 = 1 then .link else .auto
            holdoff := wordAt p 4
            autoPitch := wordAt p 6 }).setQueue { u.queue with readyMargin := wordAt p 8 })
        [])

/-- At every step the Position Unit's fields agree (R47): the accumulator below the pitch, the pitch at least 256, the
encoder the reverse depth behind the high-water position, a row count of 0 while the last trigger line is absent. -/
def Obligations.PositionStaysInAgreement : Prop :=
  ∀ s t : State, s.position.agrees → step s = .next t → t.position.agrees

/-! ### Geometry, bars and heads (chapters 04 and 07) -/

/-- GEOSET: the checks of R66 in order; then every assignment, enabled flag and offset, and nothing else of a lane or
bar (R67). -/
def Obligations.GeosetReplacesTheGeometry : Prop :=
  ∀ (s : State) (tag : Byte) (p : List Byte), s.listens .service tag →
    let c := Instr.geoset .service tag p
    let bar := fun h => byteAt p (4 * laneNumber h)
    let slot := fun h => byteAt p (4 * laneNumber h + 1)
    let first := fun h => wordAt p (4 * laneNumber h + 2)
    let on := fun b => byteAt p (32 + 3 * barNumber b)
    let offset := fun b => wordAt p (33 + 3 * barNumber b)
    let asg : PerLane (Option Assign) := .ofFn fun h =>
      if bar h = 255 then none else (barOf (bar h)).map fun b => ⟨b, slot h, first h⟩
    Checked c s .service tag
      [(p.length ≠ 44, .badLength),
       ((∃ h, bar h ≠ 255 ∧ (3 < bar h ∨ 3 < slot h ∨ 3072 < first h)) ∨ (∃ b, 1 < on b ∨ 8191 < offset b),
         .badField),
       (¬GeometryFits asg (fun b => on b = 1), .badField),
       ((∃ q ∈ s.queue.pages, q.state = .printing) ∨
          (∃ h, (s.lane h).assign ≠ none ∧ (s.lane h).head.IsBusy), .wrongState)]
      (Accepts c s .service tag
        (fun u => (u.setLanes (.ofFn fun h => { u.lane h with assign := asg.get h })).setBars
          (.ofFn fun b => { u.bar b with enabled := on b = 1, offset := offset b }))
        [])

/-- HDON, by the head's state (R73, R146). -/
def Obligations.HdonSwitchesAHeadOn : Prop :=
  ∀ (s : State) (tag : Byte) (p : List Byte), s.listens .service tag →
    let c := Instr.hdon .service tag p
    let wait := byteAt p 1 = 1
    Checked c s .service tag
      [(p.length ≠ 3, .badLength), (7 < byteAt p 0 ∨ 1 < byteAt p 1 ∨ 4 < byteAt p 2, .badField)]
      (∀ h, laneNumber h = byteAt p 0 →
        let ln := s.lane h
        let w := if byteAt p 2 = 0 then ln.warmTime else if byteAt p 2 = 1 then .ms20
          else if byteAt p 2 = 2 then .ms40 else if byteAt p 2 = 3 then .ms80 else .ms160
        Checked c s .service tag
          [(ln.assign = none ∨ ln.probe ≠ none, .wrongState),
           (ln.head = .absent ∨ (∃ x, ln.head = .settling x) ∨ ln.head = .recovery ∨ ln.head = .failed,
             .wrongState)]
          ((ln.head = .off ∨ ln.head = .parked →
              exec c s = .next (s.taken .service fun u =>
                let v := (u.modLane h fun x =>
                  { x with head := .warming, warmTime := w, warmTimer := some w }).heldOrAnswered tag wait (.hdon h)
                if ln.limit ≤ ln.temperature then v.headFault h .overtemp else v)) ∧
           (ln.head = .warming →
              exec c s = .next (((s.idleAssembler .service).modLane h fun x =>
                { x with warmTime := w }).heldOrAnswered tag wait (.hdon h))) ∧
           (ln.head = .active →
              AcceptsPlain c s .service tag
                (fun u => u.modLane h fun x => { x with warmTime := w, park := none }) [])))

/-- A head leaving ACTIVE (R78); a head fault (R147, R148). -/
def Obligations.HeadsLeaveActiveAndFault : Prop :=
  (∀ (s : State) (h : LaneId) (dest : HeadState),
     let t := s.leaveActive h dest
     t = (s.setPages t.queue.pages).modLane h (fun ln =>
       { ln with head := dest, drive := 0, slewTimer := none, fireOpen := false, load := none }) ∧
     ∃ g : Page → Page, t.queue.pages = s.queue.pages.map g ∧ ∀ q,
       let counts := q.state = .printing ∧
         ∃ ld r, (s.lane h).load = some ld ∧ ld.row = .page q.id r ∧ ld.stage ≠ .waitingRow
       (counts → g q = { q with missedLate := min 65535 (q.missedLate + 1), degraded := true }) ∧
       (¬counts → g q = q)) ∧
  (∀ (s : State) (h : LaneId) (f : HeadFault),
     let ln := s.lane h
     let t := s.headFault h f
     (ln.head ≠ .warming → ln.head ≠ .active → t = s) ∧
     (ln.head = .warming ∨ ln.head = .active →
       let out := if ln.head = .active then s.leaveActive h .active else s
       t.queue = out.queue ∧
       t.lanes = s.lanes.set h
         { out.lane h with
           lastFault := some f
           park := none
           warmTimer := none
           head := if ln.retries < 3 then .recovery else .failed
           retries := if ln.retries < 3 then ln.retries + 1 else ln.retries
           retryTimer := decide (ln.retries < 3) } ∧
       (t.link .service).flags =
         (s.link .service).flags ||| (if ln.retries < 3 then 0x0001 else 0x0003) ∧
       (∀ tag op, (s.link .service).busy = some (.waiting tag op) → op = .hdon h ∨ op = .hdpark h →
         t.sent = s.sent ++ [.reply .service tag .failed []] ∧ (t.link .service).busy = none) ∧
       ((∀ tag, (s.link .service).busy ≠ some (.waiting tag (.hdon h)) ∧
           (s.link .service).busy ≠ some (.waiting tag (.hdpark h))) →
         t.sent = s.sent ∧ (t.link .service).busy = (s.link .service).busy) ∧
       t.link .image = s.link .image ∧ t.link .motion = s.link .motion ∧ t.ring = s.ring ∧ t.bars = s.bars ∧
       t.lists = s.lists ∧ t.library = s.library ∧ t.position = s.position))

/-- HDOFF, by the head's state (R75). -/
def Obligations.HdoffSwitchesAHeadOff : Prop :=
  ∀ (s : State) (tag : Byte) (p : List Byte), s.listens .service tag →
    let c := Instr.hdoff .service tag p
    Checked c s .service tag [(p.length ≠ 1, .badLength), (7 < byteAt p 0, .badField)]
      (∀ h, laneNumber h = byteAt p 0 →
        let ln := s.lane h
        let becomes := fun (f : Lane → Lane) => AcceptsPlain c s .service tag (fun u => u.modLane h f) []
        Checked c s .service tag
          [(ln.probe ≠ none, .wrongState),
           (ln.head = .absent ∨ ln.head = .recovery ∨ ln.head = .failed, .wrongState)]
          ((ln.head = .off ∨ ln.head = .settling .off → becomes id) ∧
           (ln.head = .warming → becomes fun x => { x with head := .off, warmTimer := none }) ∧
           (ln.head = .active → Accepts c s .service tag
              (fun u => (u.leaveActive h (.settling .off)).modLane h fun x =>
                { x with park := none, settleTimer := some x.warmTime }) []) ∧
           (ln.head = .settling .parked → becomes fun x => { x with head := .settling .off }) ∧
           (ln.head = .parked → becomes fun x => { x with head := .off })))

/-- HDPARK, by the head's state (R76). -/
def Obligations.HdparkAsksForAPark : Prop :=
  ∀ (s : State) (tag : Byte) (p : List Byte), s.listens .service tag →
    let c := Instr.hdpark .service tag p
    let wait := byteAt p 1 = 1
    Checked c s .service tag
      [(p.length ≠ 3, .badLength), (7 < byteAt p 0 ∨ 1 < byteAt p 1 ∨ 1 < byteAt p 2, .badField)]
      (∀ h, laneNumber h = byteAt p 0 →
        let ln := s.lane h
        Checked c s .service tag
          [(ln.probe ≠ none, .wrongState),
           (ln.head ≠ .active ∧ ln.head ≠ .settling .parked ∧ ln.head ≠ .parked, .wrongState)]
          ((ln.head = .active → exec c s = .next (((s.idleAssembler .service).modLane h fun x =>
              { x with park := some (byteAt p 2 = 1) }).heldOrAnswered tag wait (.hdpark h))) ∧
           (ln.head = .settling .parked →
              exec c s = .next ((s.idleAssembler .service).heldOrAnswered tag wait (.hdpark h))) ∧
           (ln.head = .parked → AcceptsPlain c s .service tag id [])))

/-- LANESCAN (R72, R71): a probe on every named lane, its identify sent where no exchange is in progress; the request
stays in progress. The count of identifies (log 16) and their record in lane order (log 36) are the model's choices.
-/
def Obligations.LanescanProbesTheNamedLanes : Prop :=
  ∀ (s : State) (tag : Byte) (p : List Byte), s.listens .service tag →
    let c := Instr.lanescan .service tag p
    let named := fun h => (byteAt p 0).testBit (laneNumber h)
    Checked c s .service tag
      [(p.length ≠ 1, .badLength), (byteAt p 0 = 0, .badField),
       (∃ h, named h = true ∧ ((s.lane h).probe ≠ none ∨ (s.lane h).head.IsBusy ∨ (s.lane h).head = .failed),
         .wrongState)]
      (exec c s = .next
        ((((s.idleAssembler .service).setLanes (.ofFn fun h =>
          if named h then
            { s.lane h with
              probe := some (.plain true)
              exchange := some ((s.lane h).exchange.getD .identify)
              identifies := if (s.lane h).exchange = none then (s.lane h).identifies + 1
                else (s.lane h).identifies }
          else s.lane h)).setSent (s.sent ++
            (laneIds.filter fun h => named h && (s.lane h).exchange.isNone).map fun h =>
              Sent.head h .identify)).setBusy .service
          (some (.scan tag (.ofFn named) (.ofFn fun _ => false)))))

/-- DRVSET (R141, R143, R146): the fields, the level and ramp by what it finds and gives, the fault of a new limit,
and the reply of level and target. That the reply shows what stands after a fault is the model's reading (log 19,
DEDUCED). -/
def Obligations.DrvsetSetsTheDrive : Prop :=
  ∀ (s : State) (tag : Byte) (p : List Byte), s.listens .service tag →
    let c := Instr.drvset .service tag p
    let target := byteAt p 1
    let limit := byteAt p 4
    Checked c s .service tag
      [(p.length ≠ 5, .badLength),
       (7 < byteAt p 0 ∨ 6 < byteAt p 2 ∨ 4 < byteAt p 3 ∨ limit < 40 ∨ 100 < limit, .badField)]
      (∀ h, laneNumber h = byteAt p 0 →
        let ln := s.lane h
        let step := if byteAt p 2 = 0 then 0 else 2 ^ (byteAt p 2 - 1)
        let iv := if byteAt p 3 = 0 then SlewInterval.half else if byteAt p 3 = 1 then .ms1
          else if byteAt p 3 = 2 then .ms2 else if byteAt p 3 = 3 then .ms4 else .ms8
        let new := { ln with target := target, step := step, interval := iv, limit := limit }
        let after : Lane :=
          if ln.head ≠ .active then new
          else if ln.slewTimer ≠ none ∧ step = 0 then { new with target := ln.drive, slewTimer := none }
          else if ln.slewTimer ≠ none ∧ target = ln.drive then { new with slewTimer := none }
          else if ln.slewTimer ≠ none ∧ iv = ln.interval then new
          else if ln.slewTimer ≠ none then { new with slewTimer := some iv }
          else if step = 0 then { new with drive := target }
          else { new with slewTimer := if ln.drive = target then none else some iv }
        let faults := (ln.head = .warming ∨ ln.head = .active) ∧ limit ≤ ln.temperature
        (¬faults → Accepts c s .service tag (fun u => u.modLane h fun _ => after)
          [be8 after.drive, be8 after.target]) ∧
        (faults → exec c s = .next (s.taken .service fun u =>
          let v := (u.modLane h fun _ => after).headFault h .overtemp
          v.reply .service tag .ok [be8 (v.lane h).drive, be8 (v.lane h).target])))

/-- A wait ends with its operation, or at WDRAW (R175, R176). -/
def Obligations.WaitsEndAndAreWithdrawn : Prop :=
  (∀ (s : State) (op : WaitOp) (st : Status) (p : List Byte),
     (∀ tag, (s.link .service).busy = some (.waiting tag op) →
       s.endWait op st p =
         (s.modLink .service fun k => { k with busy := none }).reply .service tag st p) ∧
     ((∀ tag, (s.link .service).busy ≠ some (.waiting tag op)) → s.endWait op st p = s)) ∧
  (∀ (s : State) (l : LinkId) (tag : Byte) (p : List Byte),
     s.quiet = true → s.outputsFollow →
     let c := Instr.wdraw l tag p
     (tag = 0 → Refuses c s l 0 .badField) ∧
     (tag ≠ 0 → p ≠ [] → Refuses c s l tag .badLength) ∧
     (tag ≠ 0 → p = [] →
       (∀ t op, (s.link l).busy = some (.waiting t op) →
         exec c s = .next ((((s.idleAssembler l).reply l t .withdrawn []).setBusy l none).reply l tag .ok [])) ∧
       ((∀ t op, (s.link l).busy ≠ some (.waiting t op)) → Refuses c s l tag .wrongState)))

/-- The warm, settle, retry and slew timers (R74, R144, R75, R77, R149, R142); an expiry of a timer that does not run
changes nothing (log 9). -/
def Obligations.TimersExpire : Prop :=
  ∀ (s : State) (h : LaneId), s.quiet = true → s.outputsFollow →
    let ln := s.lane h
    (ln.head = .warming → ln.warmTimer ≠ none →
      Effects (.warmTimerExpiry h) s fun u => (u.modLane h fun x =>
        { x with
          head := .active, warmTimer := none, fire := none, fireOpen := false, load := none
          noReply := 0, check := 0
          nozzles := x.nozzles.map fun z => { z with idle := 0 }
          drive := if x.step = 0 then x.target else 0
          slewTimer := if x.step = 0 ∨ x.target = 0 then none else some x.interval }).endWait (.hdon h) .ok []) ∧
    (ln.head ≠ .warming ∨ ln.warmTimer = none → exec (.warmTimerExpiry h) s = .next s) ∧
    (ln.head = .settling .off → ln.settleTimer ≠ none →
      exec (.settleTimerExpiry h) s =
        .next (s.modLane h fun x => { x with head := .off, settleTimer := none })) ∧
    (ln.head = .settling .parked → ln.settleTimer ≠ none →
      Effects (.settleTimerExpiry h) s fun u =>
        ((u.modLane h fun x => { x with head := .parked, settleTimer := none }).raise .service .parked).endWait
          (.hdpark h) .ok []) ∧
    ((∀ x, ln.head ≠ .settling x) ∨ ln.settleTimer = none → exec (.settleTimerExpiry h) s = .next s) ∧
    (ln.head = .recovery → ln.retryTimer = true →
      exec (.retryTimerExpiry h) s = .next
        (let v := s.modLane h fun x =>
            { x with
              retryTimer := false, probe := some .retry, exchange := some (x.exchange.getD .identify)
              identifies := if x.exchange = none then x.identifies + 1 else x.identifies }
        if ln.exchange = none then v.send (.head h .identify) else v)) ∧
    (ln.head ≠ .recovery ∨ ln.retryTimer = false → exec (.retryTimerExpiry h) s = .next s) ∧
    (ln.head = .active → ln.slewTimer ≠ none →
      let d := if ln.drive < ln.target then ln.drive + min ln.step (ln.target - ln.drive)
        else ln.drive - min ln.step (ln.drive - ln.target)
      exec (.slewTimerExpiry h) s = .next (s.modLane h fun x =>
        { x with drive := d, slewTimer := if x.step = 0 ∨ d = x.target then none else some x.interval })) ∧
    (ln.head ≠ .active ∨ ln.slewTimer = none → exec (.slewTimerExpiry h) s = .next s)

/-- The end of a probe (R71, R145, R149, R92): the head found or not, LANECHANGE where a known presence changed, the
outcome of a retry probe, and the LANESCAN that waits for it (R72). An answer that no probe awaits is discarded, and
so is a late answer to an earlier identify than the one in progress (R70, R92, R153; that an answer names its identify
is the model's, log 16). That the temperature is taken from an answer of any nozzle count is the model's reading (log
17, DEDUCED). -/
def Obligations.ProbesEnd : Prop :=
  ∀ (s : State) (h : LaneId), s.quiet = true →
    let ln := s.lane h
    let ended := fun (x : Lane) => { x with probe := none, exchange := none }
    let answered := fun (t : Byte) (x : Lane) => { ended x with temperature := min 127 t.toNat }
    let loss := fun (x : Lane) =>
      { ended x with
        lastFault := some .laneLoss
        head := if x.retries < 3 then .recovery else .failed
        retries := if x.retries < 3 then x.retries + 1 else x.retries
        retryTimer := decide (x.retries < 3) }
    let changed := fun (known : Bool) (present : Bool) (u : State) =>
      if known = true ∧ decide (ln.head ≠ .absent) ≠ present then u.raise .service .lanechange else u
    (∀ n t known, ln.exchange = some .identify → ln.probe = some (.plain known) →
      Effects (.identifyAnswer h ⟨ln.identifies, n⟩ t) s fun u =>
        (changed known (n = 1024) (u.modLane h fun x =>
          { answered t x with head := if n = 1024 then .off else .absent })).scanned h) ∧
    (∀ known, ln.exchange = some .identify → ln.probe = some (.plain known) →
      Effects (.identifyTimeout h) s fun u =>
        (changed known false (u.modLane h fun x => { ended x with head := .absent })).scanned h) ∧
    (∀ n t, ln.exchange = some .identify → ln.probe = some .retry → n ≠ 1024 →
      Effects (.identifyAnswer h ⟨ln.identifies, n⟩ t) s fun u =>
        ((u.modLane h fun x => { answered t x with head := .absent }).raise .service .lanechange).scanned h) ∧
    (∀ t, ln.exchange = some .identify → ln.probe = some .retry →
      let cool := ((min 127 t.toNat : Nat) : Int) <
        (if ln.lastFault = some .overtemp then (ln.limit : Int) - 5 else ln.limit)
      (cool → Effects (.identifyAnswer h ⟨ln.identifies, 1024⟩ t) s fun u =>
        (u.modLane h fun x => { answered t x with head := .warming, warmTimer := some x.warmTime }).scanned h) ∧
      (¬cool → Effects (.identifyAnswer h ⟨ln.identifies, 1024⟩ t) s fun u =>
        (u.modLane h fun x => { answered t x with retryTimer := true }).scanned h)) ∧
    (ln.exchange = some .identify → ln.probe = some .retry →
      Effects (.identifyTimeout h) s fun u =>
        (let v := (u.modLane h loss).raise .service .headfault
        if ln.retries < 3 then v else v.raise .service .headfailed).scanned h) ∧
    (∀ i n t, s.outputsFollow → ln.exchange ≠ some .identify ∨ ln.probe = none ∨ i ≠ ln.identifies →
      exec (.identifyAnswer h ⟨i, n⟩ t) s = .next s) ∧
    (s.outputsFollow → ln.exchange ≠ some .identify ∨ ln.probe = none → exec (.identifyTimeout h) s = .next s) ∧
    ∀ tag running found, (s.link .service).busy = some (.scan tag running found) → running.get h = true →
      let running' := running.set h false
      let found' := found.set h (decide (ln.head ≠ .absent))
      ((∃ g, running'.get g = true) →
        s.scanned h = s.modLink .service fun k => { k with busy := some (.scan tag running' found') }) ∧
      ((∀ g, running'.get g = false) →
        s.scanned h = (s.modLink .service fun k => { k with busy := none }).reply .service tag .ok
          [laneSetByte found'])

/-- A load reply (R84, R110, R145, R150) in its order: the temperature and its fault, the reports as auto-marks, the
counts and the fault of the status; then the identify of a probe that waited is sent. A reply to no load in progress
is discarded. That the counts stay in RECOVERY (log 18) and that only the first eight reports of a longer reply are
taken (log 31) are the model's readings, DEDUCED; that a reply of the fault is recorded before the lane's identify is
its choice (log 36). -/
def Obligations.LoadRepliesAreTaken : Prop :=
  ∀ (s : State) (h : LaneId), s.quiet = true →
    let hot := fun (u : State) =>
      if (u.lane h).limit ≤ (u.lane h).temperature then u.headFault h .overtemp else u
    let answered := fun (stage : LoadStage) (x : Lane) =>
      { x with
        exchange := none
        load := x.load.map fun ld => if ld.stage = .awaiting then { ld with stage := stage } else ld }
    let counts := fun (f : Lane → Lane) (u : State) =>
      u.modLane h fun x => if x.head = .recovery then x else f x
    let marks := fun (reports : List NozzleReport) (u : State) =>
      (reports.take 8).foldl (fun v r => v.autoMark h r) u
    let temperature := fun (t : Byte) (stage : LoadStage) (u : State) =>
      u.modLane h fun x => { answered stage x with temperature := min 127 t.toNat }
    (∀ n t reports, (s.lane h).exchange = some (.load n) →
      Effects (.loadReply h n .ok t reports) s (fun u =>
        (counts (fun x => { x with noReply := 0, check := 0 })
          (marks reports (hot (temperature t .complete u)))).sendIdentify h) ∧
      Effects (.loadReply h n .loadCheck t reports) s (fun u =>
        let v := counts (fun x => { x with noReply := 0, check := min 3 (x.check + 1) })
          (marks reports (hot (temperature t .rejected u)))
        (if (v.lane h).check = 3 then v.headFault h .laneError else v).sendIdentify h) ∧
      Effects (.loadReply h n .driveFault t reports) s (fun u =>
        ((counts (fun x => { x with noReply := 0 })
          (marks reports (hot (temperature t .rejected u)))).headFault h .driveFault).sendIdentify h) ∧
      Effects (.loadReplyTimeout h) s (fun u =>
        let v := counts (fun x => { x with noReply := min 3 (x.noReply + 1) })
          (u.modLane h (answered .rejected))
        (if (v.lane h).noReply = 3 then v.headFault h .laneLoss else v).sendIdentify h)) ∧
    (∀ u : State,
      ((u.lane h).probe ≠ none → (u.lane h).exchange = none → u.sendIdentify h = (u.modLane h fun x =>
        { x with exchange := some .identify, identifies := x.identifies + 1 }).send (.head h .identify)) ∧
      ((u.lane h).probe = none ∨ (u.lane h).exchange ≠ none → u.sendIdentify h = u)) ∧
    (s.outputsFollow →
      (∀ n st t reports, (s.lane h).exchange ≠ some (.load n) →
        exec (.loadReply h n st t reports) s = .next s) ∧
      ((∀ n, (s.lane h).exchange ≠ some (.load n)) → exec (.loadReplyTimeout h) s = .next s))

/-- The row store arbiter (R82, R83); LOAD_SEND and FIRE_COMPLETE (R70, R85, R144). An event whose condition does not
hold does nothing: the model's choice (log 9). -/
def Obligations.LoadsAreGrantedSentAndFired : Prop :=
  (∀ s : State, s.quiet = true → s.outputsFollow →
     let waits := fun h => ∃ ld, (s.lane h).load = some ld ∧ ld.stage = .readWait
     let writes := ∃ tag page row b part, (s.link .image).busy = some (.rowput tag page row b part)
     let staged := fun (x : Lane) (old new : LoadStage) =>
       { x with load := x.load.map fun ld => if ld.stage = old then { ld with stage := new } else ld }
     (∀ h, s.ring.store = .free → waits h → (∀ g, laneNumber g < laneNumber h → ¬waits g) →
       exec .rowStoreGrant s = .next ((s.modLane h fun x => staged x .readWait .readRun).setRing
         { s.ring with store := .read h })) ∧
     (s.ring.store = .free → (∀ h, ¬waits h) → writes →
       exec .rowStoreGrant s = .next (s.setRing { s.ring with store := .write })) ∧
     (s.ring.store ≠ .free ∨ ((∀ h, ¬waits h) ∧ ¬writes) → exec .rowStoreGrant s = .next s) ∧
     (∀ h, s.ring.store = .read h →
       exec .rowStoreReadDone s = .next ((s.modLane h fun x => staged x .readRun .transfer).setRing
         { s.ring with store := .free })) ∧
     ((∀ h, s.ring.store ≠ .read h) → exec .rowStoreReadDone s = .next s)) ∧
  (∀ (s : State) (h : LaneId), s.quiet = true → s.outputsFollow →
     let ln := s.lane h
     (∀ ld, ln.load = some ld → ld.stage = .transfer → ln.exchange = none → ln.probe = none →
       exec (.loadSend h) s = .next ((s.modLane h fun x =>
         { x with
           number := ln.number + 1
           exchange := some (.load (ln.number + 1))
           load := some { ld with stage := .awaiting, number := ln.number + 1, drive := ln.drive } }).send
         (.head h (.load (ln.number + 1) ln.drive ld.drops)))) ∧
     ((∀ ld, ln.load = some ld → ld.stage ≠ .transfer) ∨ ln.exchange ≠ none ∨ ln.probe ≠ none →
       exec (.loadSend h) s = .next s) ∧
     (∀ ld, ln.fire = some ld → ln.fireOpen = true →
       exec (.fireComplete h ld.number) s = .next (s.modLane h fun x => { x with fireOpen := false })) ∧
     (∀ n, (∀ ld, ln.fire = some ld → ld.number ≠ n) ∨ ln.fireOpen = false →
       exec (.fireComplete h n) s = .next s))

/-! ### The nozzle table (chapter 05) -/

/-- Writing an edit into an entry (R96), and the edits of a list one after another, each wholly before the next. -/
def Obligations.EditsAreWrittenInOrder : Prop :=
  (∀ (e : Edit) (x : Nozzle),
    let y := e.writeTo x
    let given := fun (n : NewState) => match n with
      | .good => NozzleState.good | .weak => .weak | .disabled => .disabled | .failed => .failed .set
    let sameState := (e.state = none) ∨ ∃ n, e.state = some n ∧
      (given n = x.state ∨ (n = .failed ∧ ∃ cause, x.state = .failed cause))
    let sameTrim := e.trim = none ∨ e.trim = some x.trim
    y.state = (match e.state with | none => x.state | some n => given n) ∧
    y.sub = (match e.sub with | none => x.sub | some .clear => none | some (.offset v) => some v) ∧
    y.trim = e.trim.getD x.trim ∧
    (sameState → y.idle = x.idle) ∧ (¬sameState → y.idle = 0) ∧
    (sameState ∧ sameTrim → y.acc = x.acc) ∧ (¬(sameState ∧ sameTrim) → y.acc = 0)) ∧
  (∀ h xs, writeEdits [] h xs = xs) ∧
  ∀ (es : List Edit) (e : Edit) (h : LaneId) (xs : List Nozzle) (n : Nat) (x : Nozzle),
    (writeEdits es h xs)[n]? = some x →
    let targeted := e.lane = h ∧ e.first ≤ n ∧ n < e.first + e.count ∧ n ∉ e.excluded
    (targeted → (writeEdits (es ++ [e]) h xs)[n]? = some (e.writeTo x)) ∧
    (¬targeted → (writeEdits (es ++ [e]) h xs)[n]? = some x)

/-- NZEDIT: the checks of R98 in order, then one edit for each entry at the newest end (R99). -/
def Obligations.NzeditStagesItsEdits : Prop :=
  ∀ (s : State) (tag : Byte) (p : List Byte), s.listens .service tag →
    let c := Instr.nzedit .service tag p
    let n := byteAt p 0
    let has := fun i bit => (byteAt p (9 * i + 6)).testBit bit
    let first := fun i => wordAt p (9 * i + 2)
    let count := fun i => wordAt p (9 * i + 4)
    let state := fun i => byteAt p (9 * i + 7)
    let sub := fun i => signedAt p (9 * i + 8)
    let trim := fun i => signedAt p (9 * i + 9)
    let malformed := fun i =>
      7 < byteAt p (9 * i + 1) ∨ 1023 < first i ∨ count i = 0 ∨ 1024 < first i + count i ∨
      byteAt p (9 * i + 6) = 0 ∨ 7 < byteAt p (9 * i + 6) ∨
      (has i 0 = true ∧ 3 < state i) ∨
      (has i 1 = true ∧ (sub i < -3 ∨ 3 < sub i ∨ (first i : Int) + sub i < 0 ∨
        1023 < (first i : Int) + count i - 1 + sub i)) ∨
      (has i 2 = true ∧ (trim i < -7 ∨ 7 < trim i))
    Checked c s .service tag
      [(p = [], .badLength), (n = 0 ∨ 64 < n, .badField), (p.length ≠ 1 + 9 * n, .badLength),
       (∃ i, i < n ∧ malformed i, .badField), (256 < s.lists.pending.length + n, .full)]
      (AcceptsPlain c s .service tag
        (fun u => u.setLists
          { u.lists with
            stage := u.lists.stage + 1
            pending := u.lists.pending ++ (List.range n).map fun i =>
              { lane := (laneOf (byteAt p (9 * i + 1))).getD .hl0
                first := first i
                count := count i
                state := if has i 0 then some (if state i = 0 then .good else if state i = 1 then .weak
                  else if state i = 2 then .disabled else .failed) else none
                sub := if has i 1 then some (if sub i = 0 then .clear else .offset (sub i)) else none
                trim := if has i 2 then some (trim i) else none
                excluded := []
                mark := u.lists.stage + 1 } })
        (be16 (s.lists.pending.length + n) ++ be32 (s.lists.stage + 1).toNat))

/-- NZCOMMIT: the checks of R102 in order; then the write of R103, or the transition of R104. -/
def Obligations.NzcommitWritesOrAligns : Prop :=
  ∀ (s : State) (tag : Byte) (p : List Byte), s.listens .service tag →
    let c := Instr.nzcommit .service tag p
    let id := wordAt p 2
    let row := wordAt p 4
    let edits := s.lists.pending
    Checked c s .service tag
      [(p.length ≠ 6, .badLength), (1 < byteAt p 0 ∨ 1 < byteAt p 1, .badField),
       (s.lists.transition ≠ none, .wrongState)]
      ((edits = [] → exec c s = .next (s.answers .service tag .ok (be16 0))) ∧
       (edits ≠ [] → byteAt p 0 = 0 →
        AcceptsPlain c s .service tag
          (fun u => (u.setLanes (.ofFn fun h =>
              { u.lane h with nozzles := writeEdits edits h (u.lane h).nozzles })).setLists
            { u.lists with pending := [] })
          (be16 edits.length)) ∧
       (edits ≠ [] → byteAt p 0 = 1 →
        Checked c s .service tag [(s.page id = none, .notFound)]
          (∀ q, s.page id = some q →
            let t := (s.idleAssembler .service).setLists
              { s.lists with
                pending := []
                transition := some
                  { page := id, row := row, edits := edits
                    switched := q.progress.map fun x => if x.isSome then some false else none } }
            Checked c s .service tag
              [(q.state = .done ∨ q.state = .aborted, .wrongState), (q.rowCount ≤ row, .badField),
               (q.state = .printing ∧ ∃ b x, q.progress.get b ≠ none ∧ q.trigger = some x ∧
                  (s.bar b).offset + row ≤ (s.position.line - x).toNat, .wrongState)]
              ((byteAt p 1 = 1 → exec c s = .next (t.setBusy .service (some (.waiting tag .nzcommit)))) ∧
               (byteAt p 1 = 0 → exec c s = .next (t.reply .service tag .ok (be16 edits.length)))))))

/-- The switch of a bar and the end of the transition with the last (R106, R108); the view a bar uses for the loads it
begins, and the entries of the two views (R105). -/
def Obligations.BarsSwitchAtTheTransitionsRow : Prop :=
  ∀ (s : State) (b : BarId) (page row : Nat),
    (∀ x, s.lists.transition = some x → x.page = page → x.row = row → x.switched.get b = some false →
      let after := { x with switched := x.switched.set b (some true) }
      let t := s.switchBar b page row
      ((∃ g, after.switched.get g = some false) →
        t = s.setLists { s.lists with transition := some after }) ∧
      ((∀ g, after.switched.get g ≠ some false) →
        t.lists = { s.lists with transition := none } ∧
        (∀ h, t.lane h = { s.lane h with nozzles := writeEdits x.edits h (s.lane h).nozzles }) ∧
        (t.link .service).flags = (s.link .service).flags ||| 0x0020 ∧
        (∀ tag, (s.link .service).busy = some (.waiting tag .nzcommit) →
          t.sent = s.sent ++ [.reply .service tag .ok (be16 x.edits.length)] ∧
          (t.link .service).busy = none) ∧
        ((∀ tag, (s.link .service).busy ≠ some (.waiting tag .nzcommit)) →
          t.sent = s.sent ∧ (t.link .service).busy = (s.link .service).busy) ∧
        t.queue = s.queue ∧ t.ring = s.ring ∧ t.position = s.position ∧ t.library = s.library)) ∧
    ((∀ x, s.lists.transition = some x → x.page ≠ page ∨ x.row ≠ row ∨ x.switched.get b ≠ some false) →
      s.switchBar b page row = s) ∧
    (s.barView b = .transition ↔ ∃ x, s.lists.transition = some x ∧ x.switched.get b = some true) ∧
    ∀ h, s.viewNozzles .table h = (s.lane h).nozzles ∧
      (s.lists.transition = none → s.viewNozzles .transition h = (s.lane h).nozzles) ∧
      ∀ x (n : Nat) (own written : Nozzle), s.lists.transition = some x → (s.lane h).nozzles[n]? = some own →
        (writeEdits x.edits h (s.lane h).nozzles)[n]? = some written →
        (s.viewNozzles .transition h)[n]? = some { written with acc := own.acc, idle := own.idle }

/-- An auto-mark (R110, R113): the entry FAILED with the report's cause, its counts 0, the nozzle out of every edit that
targets it, the stage sequence, the superseded counter and NOZZLE; a nozzle above 1023 is discarded. -/
def Obligations.AutoMarksFailANozzle : Prop :=
  ∀ (s : State) (h : LaneId) (r : NozzleReport),
    let t := s.autoMark h r
    let hit := fun (e : Edit) => e.targets h r.nozzle
    let without := fun (es : List Edit) =>
      (es.map fun e => if hit e then { e with excluded := e.excluded ++ [r.nozzle] } else e).filter
        fun e => e.excluded.length < e.count
    let moving := match s.lists.transition with
      | some x => x.edits
      | none => []
    (1023 < r.nozzle → t = s) ∧
    (r.nozzle ≤ 1023 →
      t = ((s.setLists
          { pending := without s.lists.pending
            transition := s.lists.transition.map fun x => { x with edits := without x.edits }
            stage := s.lists.stage + 1
            superseded := min 65535
              (s.lists.superseded + ((s.lists.pending.filter hit).length + (moving.filter hit).length)) }).modLane h
          fun x => { x with nozzles := (t.lane h).nozzles }).raise .service .nozzle ∧
      (t.lane h).nozzles.length = (s.lane h).nozzles.length ∧
      (∀ n, n ≠ r.nozzle → (t.lane h).nozzles[n]? = (s.lane h).nozzles[n]?) ∧
      ∀ x, (s.lane h).nozzles[r.nozzle]? = some x → (t.lane h).nozzles[r.nozzle]? = some
        { x with
          state := .failed (match r.cause with | .openNozzle => .openNozzle | .short => .short)
          acc := 0, idle := 0 })

/-- NZREAD (R101, R180): the header, and one entry of four bytes for each nozzle of the run in table order; no change
but the count of free values drawn (log 11: the row bytes without a transition are free). That bits 7..6 of an entry's
byte 0 and bit 7 of its byte 1 are 0 is the model's choice (log 35). -/
def Obligations.NzreadReadsEntries : Prop :=
  ∀ (s : State) (tag : Byte) (p : List Byte), s.listens .service tag → s.tableWhole →
    let c := Instr.nzread .service tag p
    let start := 1024 * byteAt p 0 + wordAt p 1
    let count := wordAt p 3
    Checked c s .service tag
      [(p.length ≠ 5, .badLength),
       (7 < byteAt p 0 ∨ 1023 < wordAt p 1 ∨ count = 0 ∨ 256 < count ∨ 8192 < start + count, .badField)]
      (∃ r : List Byte, exec c s = .next ((s.setFresh (s.fresh + 1)).answers .service tag .ok r) ∧
        r.length = 9 + 4 * count ∧ wordAt r 0 = s.lists.pending.length % 65536 ∧
        (s.lists.transition = none → wordAt r 2 = 0 ∧ byteAt r 6 = 0 ∧ wordAt r 7 = 0) ∧
        (∀ x, s.lists.transition = some x → wordAt r 2 = x.page % 65536 ∧ wordAt r 4 = x.row % 65536 ∧
          wordAt r 7 = x.edits.length % 65536 ∧ byteAt r 6 < 16 ∧
          ∀ b, (byteAt r 6).testBit (barNumber b) = (x.switched.get b == some true)) ∧
        ∀ i h x, i < count → laneNumber h = (start + i) / 1024 →
          (s.lane h).nozzles[(start + i) % 1024]? = some x →
          let n := (start + i) % 1024
          let k := 9 + 4 * i
          byteAt r k % 16 = (match x.state with
            | .good => 0 | .weak => 1 | .disabled => 2 | .failed .openNozzle => 7
            | .failed .short => 11 | .failed .set => 15) ∧
          (byteAt r k).testBit 4 = s.lists.pending.any (·.targets h n) ∧
          (byteAt r k).testBit 5 = s.lists.transitionEdits.any (·.targets h n) ∧ byteAt r k < 64 ∧
          (byteAt r (k + 1) % 16 : Int) = x.trim % 16 ∧
          (byteAt r (k + 1) / 16 : Int) = (x.sub.getD 0) % 8 ∧
          wordAt r (k + 2) % 4096 = x.idle % 4096 ∧ wordAt r (k + 2) / 4096 = x.acc % 16)

/-- The nozzle table keeps its 1,024 entries for every lane at every step (R93). -/
def Obligations.TableStaysWhole : Prop :=
  ∀ s t : State, s.tableWhole → step s = .next t → t.tableWhole

/-! ### The Pattern Library (chapter 08) -/

/-- PTNEW with its first-fit extent (R158); PTDEL (R160). That a check print in use is found by its id and an outcome
WAITING or PLAYING at the bar is the model's reading (log 33, DEDUCED). -/
def Obligations.PatternsAreCreatedAndDeleted : Prop :=
  (∀ (s : State) (tag : Byte) (p : List Byte), s.listens .service tag →
     let c := Instr.ptnew .service tag p
     let rows := wordAt p 1
     let name := p.drop 3
     let dir := s.library.directory
     Checked c s .service tag
       [(p.length < 4 ∨ 11 < p.length, .badLength),
        (1 < byteAt p 0 ∨ rows = 0 ∨ 256 < rows, .badField),
        (∃ x ∈ name, ¬IsNameCharacter x, .badField),
        (24 ≤ dir.length, .full),
        (∃ e ∈ dir, e.name = name, .exists_),
        (∀ start, ¬FreeRun dir start rows, .noSpace)]
       (∃ start, FreeRun dir start rows ∧ (∀ lower, lower < start → ¬FreeRun dir lower rows) ∧
         AcceptsPlain c s .service tag
           (fun u => u.setLibrary
             { u.library with
               directory := dir ++
                 [{ name := name, kind := if byteAt p 0 = 0 then .spit else .check, rows := rows
                    start := start, ready := false, written := [] }] })
           (be16 start))) ∧
  (∀ (s : State) (tag : Byte) (p : List Byte), s.listens .service tag →
     let c := Instr.ptdel .service tag p
     let rest := s.library.directory.filter (·.name != p)
     Checked c s .service tag
       [(p = [] ∨ 8 < p.length, .badLength), (∃ x ∈ p, ¬IsNameCharacter x, .badField),
        (∀ e ∈ s.library.directory, e.name ≠ p, .notFound),
        ((∃ q ∈ s.queue.pages, q.gap = some p) ∨
           (∃ b id r, ((s.bar b).checkSlot = some (.waiting id) ∨ ∃ n, (s.bar b).checkSlot = some (.playing id n)) ∧
             r ∈ s.library.checks ∧ r.id = id ∧ r.name = p ∧
             ∃ x, r.bars.get b = some x ∧ (x.outcome = .waiting ∨ x.outcome = .playing)) ∨
           (∃ b g, (s.bar b).gapPlay = some g ∧ g.name = p), .inUse)]
       (AcceptsPlain c s .service tag (fun u => u.setLibrary { u.library with directory := rest })
         (be16 (1024 - (rest.map (·.rows)).sum))))

/-- PTROW (R159, R180): the levels of one memory row are replaced, the index joins the rows written, and the entry is
READY when all have been; every other byte of pattern memory reads as before. -/
def Obligations.PtrowWritesOneRow : Prop :=
  ∀ (s : State) (tag : Byte) (p : List Byte), s.listens .service tag → Memory.wf s.library.memory = true →
    let c := Instr.ptrow .service tag p
    let i := wordAt p 8
    let wellMade := fun (name : Name) => 1 ≤ name.length ∧ (∀ x ∈ name, IsNameCharacter x) ∧
      p.take 8 = name ++ List.replicate (8 - name.length) 0
    Checked c s .service tag
      [(p.length ≠ 266, .badLength), (∀ name, ¬wellMade name, .badField)]
      (∀ name, wellMade name →
        Checked c s .service tag [(s.pattern name = none, .notFound)]
          (∀ e, s.pattern name = some e → Checked c s .service tag [(e.rows ≤ i, .badField)]
            (∃ e' t,
              e' = { e with
                written := if i ∈ e.written then e.written else e.written ++ [i]
                ready := e'.ready } ∧
              (e'.ready = true ↔ e.ready = true ∨ ∀ k, k < e.rows → k ∈ e'.written) ∧
              exec c s = .next t ∧
              (∀ a, Memory.read t.library.memory a =
                if 256 * (e.start + i) ≤ a ∧ a < 256 * (e.start + i) + 256
                then p.getD (10 + (a - 256 * (e.start + i))) 0 else Memory.read s.library.memory a) ∧
              t.pattern name = some e' ∧ (∀ n, n ≠ name → t.pattern n = s.pattern n) ∧
              t = ((s.idleAssembler .service).setLibrary
                  { s.library with memory := t.library.memory, directory := t.library.directory }).reply
                .service tag .ok (be16 e'.written.length ++ [if e'.ready then 1 else 0]))))

/-- PTLIST (R169, R180): free rows and the largest free run, the directory, the bars' gap states and the check
records, in their layouts; no change but the count of free values drawn (log 11). A check's rows unprinted at a bar
whose play has not ended is what the record holds (log 34). That bits 7..1 of a check bar block's byte 1 are 0 is the
model's choice (log 35). -/
def Obligations.PtlistReadsTheLibrary : Prop :=
  (∀ (s : State) (tag : Byte) (p : List Byte), s.listens .service tag →
    let c := Instr.ptlist .service tag p
    let dir := s.library.directory
    Checked c s .service tag [(p ≠ [], .badLength)]
      (∃ (largest : Nat) (w : Nat → Line),
        exec c s = .next ((s.setFresh (s.fresh + 4 + 4 * s.library.checks.length)).answers .service tag .ok
          (be16 (1024 - (dir.map (·.rows)).sum) ++ be16 largest ++
            be8 dir.length :: dir.flatMap directoryEntry ++
            barIds.flatMap (fun b => barBlock (w (barNumber b)) (s.bar b)) ++
            be8 s.library.checks.length :: checkRecords (s.fresh + 4) s.library.checks)) ∧
        (s.library.ordered → (∃ start, FreeRun dir start largest) ∧ ∀ start n, FreeRun dir start n → n ≤ largest))) ∧
  (∀ e : Pattern, e.name.length ≤ 8 →
    let r := directoryEntry e
    r.length = 16 ∧ r.take 8 = e.name ++ List.replicate (8 - e.name.length) 0 ∧
    byteAt r 8 = (match e.kind with | .spit => 0 | .check => 1) ∧ byteAt r 9 = (if e.ready then 1 else 0) ∧
    wordAt r 10 = e.rows % 65536 ∧ wordAt r 12 = e.start % 65536 ∧ wordAt r 14 = e.written.length % 65536) ∧
  (∀ (base : Nat) (e : CheckRec), e.name.length ≤ 8 →
    let r := checkRecord base e
    r.length = 43 ∧ byteAt r 0 = e.id % 256 ∧
    (r.drop 1).take 8 = e.name ++ List.replicate (8 - e.name.length) 0 ∧
    byteAt r 9 < 16 ∧ (∀ b, (byteAt r 9).testBit (barNumber b) = (e.bars.get b).isSome) ∧
    byteAt r 10 = (if e.ended then 1 else 0) ∧
    ∀ b, let block := (r.drop (11 + 8 * barNumber b)).take 8
      (e.bars.get b = none → block = List.replicate 8 0) ∧
      ∀ x, e.bars.get b = some x →
        byteAt block 0 = (match x.outcome with | .waiting => 0 | .playing => 1 | .whole => 2 | .truncated => 3) ∧
        (∀ line, x.line = some line → byteAt block 1 = 1 ∧ longAt block 2 = line.toNat) ∧
        (x.line = none → byteAt block 1 = 0) ∧ wordAt block 6 = x.unprinted % 65536) ∧
  (∀ (base : Nat) (es : List CheckRec), (∀ e ∈ es, e.name.length ≤ 8) →
    (checkRecords base es).length = 43 * es.length ∧
    ∀ i e, es[i]? = some e → ((checkRecords base es).drop (43 * i)).take 43 = checkRecord (base + 4 * i) e) ∧
  ∀ (w : Line) (x : Bar),
    let r := barBlock w x
    r.length = 14 ∧
    (x.gapPlay = none → byteAt r 0 = 0 ∧ byteAt r 1 = 0 ∧ (r.drop 2).take 8 = List.replicate 8 0) ∧
    (∀ g, x.gapPlay = some g → g.name.length ≤ 8 → byteAt r 0 = 1 ∧
      byteAt r 1 = (match g.source with | .page => 0 | .check => 1) ∧
      (r.drop 2).take 8 = g.name ++ List.replicate (8 - g.name.length) 0 ∧ wordAt r 10 = g.next % 65536) ∧
    (x.checkSlot = none → byteAt r 12 = 0 ∧ byteAt r 13 = 0) ∧
    (∀ id, x.checkSlot = some (.waiting id) → byteAt r 12 = 1 ∧ byteAt r 13 = id % 256) ∧
    ∀ id n, x.checkSlot = some (.playing id n) → byteAt r 12 = 2 ∧ byteAt r 13 = id % 256

/-- CHKPRINT: the checks of R167 in order; then the next check id, an OPEN record (R166), and the bars' slots WAITING.
That the new record gives each named bar rows unprinted 0 is the model's choice (log 34). -/
def Obligations.ChkprintOpensACheck : Prop :=
  ∀ (s : State) (tag : Byte) (p : List Byte), s.listens .service tag →
    let c := Instr.chkprint .service tag p
    let set := byteAt p 1
    let name := p.drop 2
    let id := if s.library.checkCount < 255 then s.library.checkCount + 1 else 1
    let fresh : CheckRec :=
      { id := id, name := name, ended := false
        bars := .ofFn fun b => if set.testBit (barNumber b) then some ⟨.waiting, none, 0⟩ else none }
    let list := s.library.checks ++ [fresh]
    Checked c s .service tag
      [(p.length < 3 ∨ 10 < p.length, .badLength), (1 < byteAt p 0 ∨ set = 0 ∨ 15 < set, .badField),
       (∃ x ∈ name, ¬IsNameCharacter x, .badField),
       (∃ b, NamesBar set b ∧ (s.bar b).enabled = false, .badField),
       (¬∃ e, s.pattern name = some e ∧ e.ready = true, .notFound),
       (∃ e, s.pattern name = some e ∧ e.kind = .spit, .badField),
       (∃ b, NamesBar set b ∧ (s.bar b).checkSlot ≠ none, .wrongState)]
      (∃ checks,
        (list.length ≤ 4 → checks = list) ∧
        (4 < list.length → ∀ older r younger, list = older ++ r :: younger → r.ended = true →
          (∀ o ∈ older, o.ended = false) → checks = older ++ younger) ∧
        let t := ((s.idleAssembler .service).setLibrary
          { s.library with checkCount := id, checks := checks }).setBars (.ofFn fun b =>
            if set.testBit (barNumber b) then { s.bar b with checkSlot := some (.waiting id) } else s.bar b)
        (byteAt p 0 = 1 → exec c s = .next (t.setBusy .service (some (.waiting tag (.chkprint id
          (.ofFn fun b => set.testBit (barNumber b))))))) ∧
        (byteAt p 0 = 0 → exec c s = .next (t.reply .service tag .ok [be8 id])))

/-- At every step pattern memory keeps its canonical form (log 10), and the directory its capacity, distinct names and
disjoint extents (R157). -/
def Obligations.PatternLibraryStaysInOrder : Prop :=
  ∀ s t : State, step s = .next t →
    (Memory.wf s.library.memory = true → Memory.wf t.library.memory = true) ∧
    (s.library.ordered → t.library.ordered)

/-! ### Press Reset (chapters 01 to 10) -/

/-- PRRESET (R178, R21, R46, R64, R92, R116, R156, R170, R181): every block's part of the Press Reset, the ABORTED
replies before its own, and what it keeps. The row store (R12, R21, R83): a running write frees it at once, a running
lane read keeps it to its end, both the model's reading (log 15, DEDUCED). The order of the ABORTED replies is log 26,
the presence known and the count of identifies log 16. The identifies' place, in lane order between the ABORTED
replies and its own, is the model's choice (log 36). -/
def Obligations.PrresetClearsThePrintingState : Prop :=
  ∀ (s : State) (tag : Byte) (p : List Byte), s.quiet = true → s.outputsFollow → tag ≠ 0 →
    ((s.link .service).busy = none ∨ ∃ t op, (s.link .service).busy = some (.waiting t op)) →
    let c := Instr.prreset .service tag p
    let abortedWait := match (s.link .service).busy with
      | some (.waiting t _) => [Sent.reply .service t .aborted []]
      | _ => []
    let abortedWrite := match (s.link .image).busy with
      | some (.rowput t ..) => [Sent.reply .image t .aborted []]
      | _ => []
    Checked c s .service tag [(p ≠ [], .badLength)]
      (∃ t, exec c s = .next t ∧
        t.ring.rows = [] ∧ t.ring.roomMark = s.ring.roomMark ∧
        (s.ring.store = .write → t.ring.store = .free) ∧ (s.ring.store ≠ .write → t.ring.store = s.ring.store) ∧
        t.queue = { pages := [], suppress := false, readyMargin := s.queue.readyMargin, ready := false } ∧
        t.position = { s.position with lastTrigger := none, lastRows := 0 } ∧
        (∀ b, t.bar b =
          { s.bar b with next := .idle, darkReported := false, gapPlay := none, checkSlot := none }) ∧
        (∀ h, ∃ known, (t.lane h).probe = some (.plain known) ∧
          (known = false ↔ (s.lane h).probe = some (.plain false)) ∧
          t.lane h =
            { s.lane h with
              head := if (s.lane h).head = .absent then .absent else .off
              probe := (t.lane h).probe
              exchange := some .identify
              identifies := (s.lane h).identifies + 1
              warmTimer := none, settleTimer := none, retryTimer := false, slewTimer := none
              park := none, fire := none, fireOpen := false, load := none, noReply := 0, check := 0
              drive := 0, retries := 0
              nozzles := (s.lane h).nozzles.map fun x => { x with acc := 0, idle := 0 } }) ∧
        t.lists = { s.lists with pending := [], transition := none } ∧
        t.library = { s.library with checks := s.library.checks.filter (·.ended) } ∧
        (∀ l, (t.link l).mask = (s.link l).mask ∧ (t.link l).discarded = (s.link l).discarded ∧
          (t.link l).badCheck = (s.link l).badCheck ∧ (t.link l).assembler = .idle) ∧
        (t.link .service).busy = none ∧ (∀ tg pg rw b x, (t.link .image).busy ≠ some (.rowput tg pg rw b x)) ∧
        (t.link .image).flags = (s.link .image).flags ||| 0x0010 |||
          (if s.freeSlots < s.ring.roomMark ∧ s.ring.roomMark ≤ 2048 then 0x0008 else 0) ∧
        (t.link .motion).flags = (s.link .motion).flags ||| 0x0020 |||
          (if s.queue.ready then 0x0001 else 0) ∧
        (t.link .service).flags = (s.link .service).flags ||| 0x0100 ∧
        t.sent = s.sent ++ abortedWait ++ abortedWrite ++ laneIds.map (fun h => Sent.head h .identify) ++
          [.reply .service tag .ok []])

/-! ### Row delivery and drops (chapters 04 and 06) -/

/-- A bar's work at a tick (R32, R79, R80, R68): the fields in effect, then the pass of the row the line gives, or the
gap, then parks; and at step 3 the load of the row the next line gives, else of its pattern, its check, its gap
(R163); a check that starts so is PLAYING at the bar in its record too (R166). What beginning a load is (R81, R82,
R105, R106, R163): a new head load at each ACTIVE head, the bar's record of a page row's load with the view and the
fields in effect, after a truncated play and the bar's switch; a page row assigned at once when it is complete, or
handed over when it becomes so (R4); a pattern row (its levels as its memory row packs them, R180) or gap row assigned
at once. Readings of the model, not words of the spec: a pass that halts its page still counts as the tick of a page
row, so that no park without NOW is taken at it (log 13, DEDUCED; R162 says such a pass is not a pass of the row); a
check's record at a bar is found by its id and an outcome WAITING or PLAYING there (log 33, DEDUCED). -/
def Obligations.TicksPassAndLoadByLine : Prop :=
  ∀ (s : State) (b : BarId),
    let u := s.modBar b fun x => { x with inEffect := x.asSet }
    let firstGiving := fun (line : Line) (p : Page) (r : Nat) => p.Gives b (s.bar b).offset line r ∧
      ∃ older younger, s.queue.pages = older ++ p :: younger ∧
        ∀ o ∈ older, ∀ r', ¬o.Gives b (s.bar b).offset line r'
    let noneGiving := fun (line : Line) => ∀ p ∈ s.queue.pages, ∀ r, ¬p.Gives b (s.bar b).offset line r
    let L := s.position.line
    (∀ p r, firstGiving (L - 1) p r → s.passWork b = (u.passPage b p.id r).takeParks b true) ∧
    (noneGiving (L - 1) → s.passWork b = (u.gapAction b).takeParks b false) ∧
    (∀ p r, firstGiving L p r → s.beginLoads b = s.beginPage b p.id r) ∧
    (noneGiving L → ∀ g, (s.bar b).gapPlay = some g → s.beginLoads b = s.beginPattern b g) ∧
    (noneGiving L → (s.bar b).gapPlay = none → (∀ id, (s.bar b).checkSlot ≠ some (.waiting id)) →
      s.beginLoads b = s.beginGap b) ∧
    (noneGiving L → (s.bar b).gapPlay = none → ∀ id rec,
      (s.bar b).checkSlot = some (.waiting id) → s.library.checks.find? (·.runsAt b id) = some rec →
      let t := s.beginLoads b
      let play : GapPlay := ⟨rec.name, .check, 0, .check⟩
      let started := (s.setLibrary
        { s.library with
          checks := s.library.checks.map fun r =>
            if r.runsAt b id then
              { r with bars := r.bars.set b ((r.bars.get b).map fun x => { x with outcome := .playing }) }
            else r }).modBar b fun x => { x with checkSlot := some (.playing id 0), gapPlay := some play }
      t = started.beginPattern b play ∧ t.library = started.library ∧
        (t.bar b).gapPlay = some play ∧ (t.bar b).checkSlot = some (.playing id 0) ∧ (t.bar b).next = .pattern) ∧
    (∀ (r : CheckRec) id, r.runsAt b id = true ↔
      r.id = id ∧ ∃ x, r.bars.get b = some x ∧ (x.outcome = .waiting ∨ x.outcome = .playing)) ∧
    (∀ m n, n < 1024 → (s.patternRow m)[n]? =
      some (packedLevel (Memory.read s.library.memory (256 * m + n / 4)) (n % 4))) ∧
    (∀ page row,
      let before := (s.truncatePlay b).switchBar b page row
      ∃ begun : State, s.beginPage b page row = begun.handTo page row b ∧
        begun = (before.modBar b fun x =>
          { x with
            next := .page
              { page := page, row := row, view := before.barView b, fields := x.inEffect, waiting := true
                lost := 0, substituted := 0, added := false } }).setLanes begun.lanes ∧
        before.LoadsBegun begun b fun _ => ⟨.page page row, .waitingRow, 0, 0, []⟩) ∧
    (∀ g e, s.pattern g.name = some e →
      let t := s.beginPattern b g
      let kind := match g.kind with | .spit => RowKind.spit | .check => .check
      t = (s.modBar b fun x => { x with next := .pattern }).setLanes t.lanes ∧
      s.LoadsBegun t b fun h => ⟨.pattern, .transfer, 0, 0,
        rowDrops kind (s.bar b).inEffect (s.viewNozzles (s.barView b) h) (s.patternRow (e.start + g.next))⟩) ∧
    (s.beginGap b = (s.modBar b fun x => { x with next := .gap }).setLanes (s.beginGap b).lanes ∧
      s.LoadsBegun (s.beginGap b) b fun h => ⟨.gap, .transfer, 0, 0,
        rowDrops .gap (s.bar b).inEffect (s.viewNozzles (s.barView b) h) (List.replicate 1024 .l0)⟩) ∧
    ∀ page row,
      (∀ pl x, s.RowIsReady page row b pl x →
        s.handTo page row b = s.assignPage b pl x.status ∧
        let t := s.handRow page row
        (∃ pl', (t.bar b).next = .page pl' ∧ pl.Handed pl' s.queue.suppress) ∧
        ∀ h c ld, (h, c) ∈ slotOrder s.assigns b → (s.lane h).head = .active → (s.lane h).load = some ld →
          ld.row = .page page row → ∃ drops, (t.lane h).load = some
            { ld with drops := drops, stage := if x.status = .blank then .transfer else .readWait }) ∧
      ((∀ pl x, ¬s.RowIsReady page row b pl x) → s.handTo page row b = s)

/-- A pending park is taken when it is due (R77), at each head of the bar; at a gap every ACTIVE head acts once, on
the bar's pattern row (a CHECK row being suppressed by Suppress, R165), on its gap row, or, where its load was
abandoned, on nothing (R79, R85, R90, R129). A pattern row is played, and its play ends with the last (R161). A
check's row counts unprinted where no head fires it (R161, R165), its first row gives the line record (R166), and its
last row ends it WHOLE. A play that a page row ends is truncated: the rows left are counted, a check ends TRUNCATED
(R164). The end of a check at a bar (R161, R166): slot, outcome and rows unprinted; the last bar's end raises
CHECKDONE and answers a waiting CHKPRINT (R168). The bytes of an absent line record are free values (log 11). Readings
of the model: a check's record at a bar is found by its id and an outcome WAITING or PLAYING there, and its waiting
CHKPRINT by id and bar set (log 33, DEDUCED). That the reply is recorded after the commands of the bar's heads is its
choice (log 36). -/
def Obligations.ParksAndPatternRows : Prop :=
  (∀ (s : State) (b : BarId) (passed : Bool) (h : LaneId),
    let isDue := ∃ now, (s.lane h).park = some now ∧ (s.lane h).head = .active ∧
      (now = true ∨ (passed = false ∧ ∀ q ∈ s.queue.pages, q.state = .printing →
        ∀ n, q.progress.get b = some n → q.rowCount ≤ n))
    (isDue → s.takePark b passed h =
      (s.leaveActive h (.settling .parked)).modLane h fun x =>
        { x with park := none, settleTimer := some x.warmTime }) ∧
    (¬isDue → s.takePark b passed h = s)) ∧
  (∀ (s : State) (b : BarId) (passed : Bool), ∃ heads : List LaneId, heads.Nodup ∧
    (∀ h, h ∈ heads ↔ ∃ a, (s.lane h).assign = some a ∧ a.bar = b) ∧
    s.takeParks b passed = heads.foldl (fun u h => u.takePark b passed h) s) ∧
  (∀ (s : State) (b : BarId),
    let idle := fun (u : State) => u.modBar b fun x => { x with next := .idle }
    ((s.bar b).next = .gap → ∃ u, s.HeadsAct u b .gap none false false ∧ s.gapAction b = idle u) ∧
    ((s.bar b).next ≠ .gap → ((s.bar b).next = .pattern → (s.bar b).gapPlay = none) →
      ∃ u, s.HeadsAct u b .gap none false true ∧ s.gapAction b = idle u)) ∧
  (∀ (s : State) (b : BarId) (g : GapPlay) (e : Pattern),
    (s.bar b).next = .pattern → (s.bar b).gapPlay = some g → s.pattern g.name = some e →
    let t := s.gapAction b
    ∃ fired : State,
      s.HeadsAct fired b (match g.kind with | .spit => .spit | .check => .check) none
        (s.queue.suppress && g.kind == .check) false ∧
      t.lanes = fired.lanes ∧ t.position = fired.position ∧ t.lists = s.lists ∧ (∀ c, c ≠ b → t.bar c = s.bar c) ∧
      t.links.motion = fired.links.motion ∧ t.links.image = s.links.image ∧
      (g.source = .page ∨ g.next + 1 < e.rows → t.sent = fired.sent ∧ t.links.service = s.links.service) ∧
      (t.bar b).next = .idle ∧ t.queue = s.queue ∧ t.ring = s.ring ∧
      (g.next + 1 < e.rows → (t.bar b).gapPlay = some { g with next := g.next + 1 }) ∧
      (e.rows ≤ g.next + 1 → (t.bar b).gapPlay = none) ∧
      (g.source = .page → (t.bar b).checkSlot = (s.bar b).checkSlot ∧ t.library = s.library) ∧
      ∀ id n, g.source = .check → (s.bar b).checkSlot = some (.playing id n) →
        let printed := (s.queue.suppress = false ∨ g.kind = .spit) ∧ ∃ h ld, s.IsActiveAt b h ∧
          (s.lane h).load = some ld ∧ ld.stage = .complete ∧ (s.lane h).fireOpen = false
        ∃ n' checks, (printed → n' = n) ∧ (¬printed → n' = n + 1) ∧
          checks = s.library.checks.map (fun r =>
            if g.next = 0 ∧ r.runsAt b id then
              { r with bars := r.bars.set b ((r.bars.get b).map fun x => { x with line := some s.position.line }) }
            else r) ∧
          (g.next + 1 < e.rows → (t.bar b).checkSlot = some (.playing id n') ∧
            t.library = { s.library with checks := checks }) ∧
          (e.rows ≤ g.next + 1 → ∃ u : State, (u.bar b).checkSlot = some (.playing id n') ∧
            u.library = { s.library with checks := checks } ∧ u.links.service = s.links.service ∧
            u.sent = fired.sent ∧ u.fresh = s.fresh ∧
            t = (u.endCheck b .whole).modBar b fun x => { x with next := .idle })) ∧
  (∀ (s : State) (b : BarId),
    ((s.bar b).gapPlay = none → s.truncatePlay b = s) ∧
    ∀ g e, (s.bar b).gapPlay = some g → s.pattern g.name = some e →
      let ended := (s.setLibrary
        { s.library with truncated := min 65535 (s.library.truncated + (e.rows - g.next)) }).modBar b fun x =>
          { x with gapPlay := none }
      (g.source = .page → s.truncatePlay b = ended) ∧
      (g.source = .check → s.truncatePlay b = ended.endCheck b .truncated)) ∧
  ∀ (s : State) (b : BarId) (id n : Nat) (o : CheckOutcome) (r : CheckRec),
    (s.bar b).checkSlot = some (.playing id n) → s.library.checks.find? (·.runsAt b id) = some r →
    ∃ r', r' = { r with
        bars := r.bars.set b ((r.bars.get b).map fun x => { x with outcome := o, unprinted := n }), ended := r'.ended } ∧
      (r'.ended = true ↔ ∀ g x, r'.bars.get g = some x → x.outcome = .whole ∨ x.outcome = .truncated) ∧
      let kept := (s.modBar b fun x => { x with checkSlot := none }).setLibrary
        { s.library with checks := s.library.checks.map fun q => if q.runsAt b id then r' else q }
      let done := (kept.setFresh (s.fresh + 4)).raise .service .checkdone
      let whole := ∀ g x, r'.bars.get g = some x → x.outcome = .whole
      let waits := fun tag =>
        (s.link .service).busy = some (.waiting tag (.chkprint r.id (r.bars.map Option.isSome)))
      let answered := fun (tag : Byte) (st : Status) =>
        (done.setBusy .service none).reply .service tag st (be8 r.id :: checkBlocks s.fresh r')
      (r'.ended = false → s.endCheck b o = kept) ∧
      (r'.ended = true → (∀ tag, ¬waits tag) → s.endCheck b o = done) ∧
      (r'.ended = true → ∀ tag, waits tag → (whole → s.endCheck b o = answered tag .ok) ∧
        (¬whole → s.endCheck b o = answered tag .failed))

/-- What a head with a load does at step 1 of a tick, the first case of R85 that holds, with its latches, its fire
command, its idle counts and its miss (R86, R87, R61, R129); a head without a load moves its idle counts alone. That
the idle counts move by the table's own nozzle states is the model's reading (log 14, DEDUCED). -/
def Obligations.HeadsFireOrMiss : Prop :=
  (∀ (s : State) (kind : RowKind) (limit : Nat) (page : Option Nat) (suppressed waiting : Bool) (h : LaneId),
    (s.lane h).load = none →
    s.tickHead kind limit page suppressed waiting h = s.modLane h fun x =>
      { x with nozzles := if kind = .check then x.nozzles else idleQuiet limit x.nozzles }) ∧
  ∀ (s : State) (kind : RowKind) (limit : Nat) (page : Option Nat) (suppressed waiting : Bool) (h : LaneId) ld,
    (s.lane h).load = some ld →
    let ln := s.lane h
    let t := s.tickHead kind limit page suppressed waiting h
    let misses := s.modLane h fun x =>
      { x with load := none, nozzles := if kind = .check then x.nozzles else idleQuiet limit x.nozzles }
    let fires := fun (m : FireMode) => (s.modLane h fun x =>
      { x with
        load := none, fire := some ld, fireOpen := true
        nozzles := if kind = .check then x.nozzles else idleFired limit m x.nozzles ld.drops }).send
      (.head h (.fire ld.number m))
    let onPage := fun (f : Page → Page) (u : State) => match page with
      | some id => u.modPage id f
      | none => u
    (suppressed = true → ld.stage = .complete → ln.fireOpen = false → t = fires .keepWetOnly) ∧
    (suppressed = true → ld.stage ≠ .complete ∨ ln.fireOpen = true → t = misses) ∧
    (suppressed = false → waiting = true → t = misses) ∧
    (suppressed = false → waiting = false → ln.fireOpen = true →
      t = onPage (fun q => { q with missedOverspeed := min 65535 (q.missedOverspeed + 1), degraded := true })
        ((misses.setPosition
          { s.position with overspeed := min 65535 (s.position.overspeed + 1) }).raise .motion .overspeed)) ∧
    (suppressed = false → waiting = false → ln.fireOpen = false → ld.stage ≠ .complete →
      t = onPage (fun q => { q with missedLate := min 65535 (q.missedLate + 1), degraded := true }) misses) ∧
    (suppressed = false → waiting = false → ln.fireOpen = false → ld.stage = .complete → t = fires .full)

/-- The pass of a page row at a bar. Every ACTIVE head acts on the row once (R85, R129). The pass that is suppressed, or
that is an underrun (R33, R42, R88, R38): progress, the counter, the degraded flag, the abort under HALT, and UNDERRUN
on the Image link. The pass settles the row's tallies against the Suppress flag (R134). It sets the bar's passed flag
of the row held, which is finished with the last flag, and rows that are due are released (R15, R17, R33). The first
dark pass of a page at a bar raises BARDARK, and no later one (R89). The last row's pass starts the page's gap pattern
at the bar (R162), and the last bar's makes the page DONE with PGDONE on both links (R34). A pass that halts its page
is the heads' part and the dark report, and then the abort. That the dark report comes before the abort is the model's
reading (log 12, DEDUCED), and so is the record of a load that the bar does not hold (log 32, DEDUCED). -/
def Obligations.PassesMoveThePage : Prop :=
  (∀ (s : State) (b : BarId) (id row : Nat),
    (∀ pl, (s.bar b).next = .page pl → pl.page = id → pl.row = row → s.loadOf b id row = pl) ∧
    ((∀ pl, (s.bar b).next = .page pl → pl.page ≠ id ∨ pl.row ≠ row) → ∃ waiting,
      (waiting = true ↔ ¬RowIsComplete s.ring.rows id row) ∧
      s.loadOf b id row =
        { page := id, row := row, view := .table, fields := (s.bar b).inEffect, waiting := waiting
          lost := 0, substituted := 0, added := false })) ∧
  (∀ (s : State) (b : BarId) (id row : Nat) (q : Page),
    s.page id = some q → q.state = .printing → q.progress.get b ≠ none →
    let t := s.passPage b id row
    let pl := s.loadOf b id row
    let passed := q.progress.set b (some (row + 1))
    let halts := s.queue.suppress = false ∧ pl.waiting = true ∧ (s.bar b).inEffect.policy = .halt
    let dark := s.queue.suppress = false ∧ ∀ h, ¬s.IsActiveAt b h
    let last := row + 1 = q.rowCount
    let ends := last ∧ ∀ g n, passed.get g = some n → n = q.rowCount
    ∃ (u v : State) (q' qu : Page),
      s.HeadsAct u b .page (some id) s.queue.suppress pl.waiting ∧
      v.lanes = u.lanes ∧ v.sent = u.sent ∧ v.position = u.position ∧ v.lists = s.lists ∧ v.library = s.library ∧
      (∀ j, j ≠ id → v.page j = s.page j) ∧ (∀ c, c ≠ b → v.bar c = s.bar c) ∧
      v.bar b = { s.bar b with
        next := .idle, gapPlay := (v.bar b).gapPlay, darkReported := (v.bar b).darkReported } ∧
      (dark ∧ (s.bar b).darkReported = false → (v.link .service).flags = (s.link .service).flags ||| 0x0040) ∧
      (¬(dark ∧ (s.bar b).darkReported = false) → v.link .service = s.link .service) ∧
      (dark → halts ∨ ¬last → (v.bar b).darkReported = true) ∧
      (¬dark → halts ∨ ¬last → (v.bar b).darkReported = (s.bar b).darkReported) ∧
      (¬halts → last → (v.bar b).darkReported = false) ∧
      (halts ∨ ¬last ∨ q.gap = none → (v.bar b).gapPlay = (s.bar b).gapPlay) ∧
      (¬halts → last → ∀ n e, q.gap = some n → s.pattern n = some e →
        (v.bar b).gapPlay = some { name := n, kind := e.kind, next := 0, source := .page }) ∧
      (halts → v.ring = s.ring ∧ t = v.abortPage id .underrunHalt) ∧
      (¬halts → t = v ∧ v.ring = { s.ring with
        rows := released (s.ring.rows.map fun r => if r.page = id ∧ r.row = row then r.passedAt b else r) }) ∧
      t.page id = some q' ∧ u.page id = some qu ∧
      q' = { q with
        state := q'.state, cause := q'.cause, progress := q'.progress, missedUnderrun := q'.missedUnderrun
        missedLate := qu.missedLate, missedOverspeed := qu.missedOverspeed, suppressed := q'.suppressed
        lost := q'.lost, substituted := q'.substituted, degraded := q'.degraded } ∧
      (¬halts → q'.cause = q.cause ∧ (ends → q'.state = .done) ∧ (¬ends → q'.state = .printing)) ∧
      (t.link .image).flags &&& 0x0001 = (if q'.state = .done then 0x0001 else (s.link .image).flags &&& 0x0001) ∧
      (t.link .motion).flags &&& 0x0008 = (if q'.state = .done then 0x0008 else (s.link .motion).flags &&& 0x0008) ∧
      (t.link .motion).flags &&& 0x0004 = (u.link .motion).flags &&& 0x0004) ∧
  ∀ (s : State) (b : BarId) (id row : Nat) (q : Page),
    s.page id = some q → q.state = .printing → q.progress.get b ≠ none →
    let t := s.passPage b id row
    let passed := q.progress.set b (some (row + 1))
    let flags := fun (u : State) => (u.link .image).flags
    let pl := s.loadOf b id row
    let back := fun (n tally : Nat) => if pl.added = true ∧ n ≠ 4294967295 then n - tally else n
    let settled := fun (n tally : Nat) => if pl.added = true then n else min 4294967295 (n + tally)
    (s.queue.suppress = true → ∃ q', t.page id = some q' ∧ q'.progress = passed ∧
      q'.lost = back q.lost pl.lost ∧ q'.substituted = back q.substituted pl.substituted ∧
      q'.suppressed = min 65535 (q.suppressed + 1) ∧ q'.missedUnderrun = q.missedUnderrun ∧
      q'.missedLate = q.missedLate ∧ q'.missedOverspeed = q.missedOverspeed ∧ q'.degraded = q.degraded ∧
      flags t &&& 0x0004 = flags s &&& 0x0004) ∧
    (s.queue.suppress = false → (s.loadOf b id row).waiting = true → (s.bar b).inEffect.policy = .blank →
      ∃ q', t.page id = some q' ∧ q'.progress = passed ∧ q'.lost = q.lost ∧ q'.substituted = q.substituted ∧
        q'.missedUnderrun = min 65535 (q.missedUnderrun + 1) ∧ q'.missedLate = q.missedLate ∧
        q'.missedOverspeed = q.missedOverspeed ∧ q'.suppressed = q.suppressed ∧ q'.degraded = true ∧
        flags t &&& 0x0004 = 0x0004) ∧
    (s.queue.suppress = false → (s.loadOf b id row).waiting = true → (s.bar b).inEffect.policy = .halt →
      ∃ q', t.page id = some q' ∧ q'.progress = q.progress ∧ q'.state = .aborted ∧
        q'.lost = q.lost ∧ q'.substituted = q.substituted ∧
        q'.cause = some .underrunHalt ∧ q'.missedUnderrun = q.missedUnderrun ∧
        q'.suppressed = q.suppressed ∧ flags t &&& 0x0004 = 0x0004 ∧ flags t &&& 0x0002 = 0x0002) ∧
    (s.queue.suppress = false → (s.loadOf b id row).waiting = false →
      ∃ q', t.page id = some q' ∧ q'.progress = passed ∧ q'.missedUnderrun = q.missedUnderrun ∧
        q'.suppressed = q.suppressed ∧ flags t &&& 0x0004 = flags s &&& 0x0004 ∧
        q'.lost = settled q.lost pl.lost ∧ q'.substituted = settled q.substituted pl.substituted ∧
        ((s.activeLanes b).isEmpty = true → q'.degraded = true) ∧
        (pl.added = false → 1 ≤ pl.lost → q'.degraded = true))

/-- Trim (R126), keep-wet (R128) and idle counts (R129) of one nozzle. -/
def Obligations.TrimKeepWetAndIdleCounts : Prop :=
  (∀ (x : Nozzle) (v : Level),
    let fires := (x.state = .good ∨ x.state = .weak) ∧ v ≠ .l0 ∧ x.trim ≠ 0
    let sum := x.acc + x.trim.natAbs
    (¬fires → trimmed x v = (v, x.acc)) ∧
    (fires → sum < 16 → trimmed x v = (v, sum)) ∧
    (fires → 16 ≤ sum → (trimmed x v).2 = sum - 16 ∧
      (0 < x.trim → ((trimmed x v).1).val = min 3 (v.val + 1)) ∧
      (x.trim < 0 → ((trimmed x v).1).val = max 1 (v.val - 1)))) ∧
  (∀ (kind : RowKind) (f : BarFields) (x : Nozzle) (v : Level),
    let isDue := v = .l0 ∧ ((x.state = .good ∧ f.limit - 1 ≤ x.idle) ∨
      (x.state = .weak ∧ max 1 (f.limit / 2) - 1 ≤ x.idle))
    let d := keepWetDrop kind f x v
    (¬isDue ∨ kind = .check ∨ f.keepWet = .off → d = ⟨v, .plain⟩) ∧
    (isDue → kind ≠ .check → f.keepWet = .tickle → d = ⟨.l0, .tickle⟩) ∧
    (isDue → kind ≠ .check → f.keepWet = .spitAny → d = ⟨.l1, .spit⟩) ∧
    (isDue → kind = .page → f.keepWet = .spitGap → d = ⟨.l0, .plain⟩) ∧
    (isDue → kind = .spit ∨ kind = .gap → f.keepWet = .spitGap → d = ⟨.l1, .spit⟩)) ∧
  ∀ (limit : Nat) (x : Nozzle) (d : Drop),
    let own := if x.state = .weak then max 1 (limit / 2) else limit
    ((x.state = .good ∨ x.state = .weak) →
      (x.tick limit true).idle = 0 ∧ (x.tick limit false).idle = min (x.idle + 1) own) ∧
    (x.state ≠ .good → x.state ≠ .weak → ∀ emitted, x.tick limit emitted = x) ∧
    (d.emits .full = true ↔ d.level ≠ .l0 ∨ d.mark = .tickle) ∧
    (d.emits .keepWetOnly = true ↔ d.mark = .tickle ∨ d.mark = .spit) ∧
    ∀ (m : FireMode) (xs : List Nozzle) (ds : List Drop) (n : Nat),
      (idleQuiet limit xs)[n]? = xs[n]?.map (·.tick limit false) ∧
      (idleFired limit m xs ds)[n]? = xs[n]?.map (·.tick limit (match ds[n]? with
        | some d => d.emits m
        | none => false))

/-- The heads of a bar in slot order with what lies over each nozzle's column (R65, R120, R121) and its stored level
(R5). Overlap columns (R121, R122, R123); substitution (R124, R125); the drops, accumulators and tallies of an
assignment at a head (R117, R127, R133); the assignment of a row at a bar, its tallies added to the page or, while
Suppress is set, kept with the load (R82, R133, R134); nozzles that do not fire (R94). -/
def Obligations.OverlapPixelsAndUnfitNozzles : Prop :=
  (∀ (s : State) (b : BarId),
     let order := slotOrder s.assigns b
     (∀ h c, (h, c) ∈ order → ∃ a, (s.lane h).assign = some a ∧ a.bar = b ∧ a.first = c) ∧
     order.Pairwise (fun x y => ∀ a z, (s.lane x.1).assign = some a → (s.lane y.1).assign = some z → a.slot < z.slot) ∧
     (∀ h a, (s.lane h).assign = some a → a.bar = b → a.slot ≤ 3 →
       ∃ g c z, (g, c) ∈ order ∧ (s.lane g).assign = some z ∧ z.slot = a.slot) ∧
     ∀ (v : View) (page row : Nat),
       s.assignHeads b v page row = order.map (fun x =>
         ⟨x.1, x.2, (s.lane x.1).takesPart page row, s.viewNozzles v x.1⟩) ∧
       ∀ h, (s.lane h).takesPart page row = true ↔
         (s.lane h).head = .active ∧ ∃ ld, (s.lane h).load = some ld ∧ ld.row = .page page row) ∧
  (∀ (f : BarFields) (row : Nat) (part : Option PlanePart) (left : Option AssignHead) (heads : List AssignHead)
       (i : Nat),
     (shares f row part left heads)[i]? = heads[i]?.map fun h =>
       (h, headShare f row h.first h.takesPart h.entries
         (partnersOf (if i = 0 then left else heads[i - 1]?) h heads[i + 1]?) (partLevels part h.first))) ∧
  (∀ (left right : Option AssignHead) (own : AssignHead),
     (∀ a, left = some a →
       a.entries.length = 1024 ∧ a.first + 960 ≤ own.first ∧ own.first ≤ a.first + 1024) →
     (∀ z, right = some z →
       z.entries.length = 1024 ∧ own.first + 960 ≤ z.first ∧ z.first ≤ own.first + 1024) →
     let ps := partnersOf left own right
     ps.length = 1024 ∧ ∀ n, n < 1024 → let column := own.first + n
       (∀ a, left = some a → column < a.first + 1024 → ∃ e, a.entries[column - a.first]? = some e ∧
         ps[n]? = some (.left (column - own.first) (a.first + 1024 - own.first) a.takesPart e)) ∧
       (∀ z, right = some z → z.first ≤ column → ∃ e, z.entries[column - z.first]? = some e ∧
         ps[n]? = some (.right (column - z.first) (own.first + 1024 - z.first) z.takesPart e)) ∧
       ((∀ a, left = some a → a.first + 1024 ≤ column) → (∀ z, right = some z → column < z.first) →
         ps[n]? = some .sole)) ∧
  (∀ (part : Option PlanePart) (first : Nat),
     (partLevels part first).length = 1024 ∧ ∀ n, n < 1024 →
       (part = none → (partLevels part first)[n]? = some .l0) ∧
       ∀ x, part = some x → (partLevels part first)[n]? =
         some (if x.first ≤ first + n then x.levels.getD (first + n - x.first) .l0 else .l0)) ∧
  (∀ (mode : Handover) (row column : Nat) (a : Nozzle) (part : Bool), holds mode row column part a .sole = part) ∧
  (∀ (mode : Handover) (row column j w : Nat) (a b : Nozzle) (partA partB : Bool),
     let atA := holds mode row column partA a (.right j w partB b)
     let atB := holds mode row column partB b (.left j w partA a)
     let lower := match mode with
       | .midpoint => decide (j < w / 2)
       | .interleave => decide ((column + row) % 2 = 0)
     (partA = true → partB = true → atB = !atA ∧
       (atA = true ↔ if lower then ¬(a.state.unfit = true ∧ b.state = .good)
         else (b.state.unfit = true ∧ a.state = .good))) ∧
     (partA = true → partB = false → atA = true ∧ atB = false) ∧
     (partA = false → partB = true → atA = false ∧ atB = true) ∧
     (partA = false → partB = false → atA = false ∧ atB = false)) ∧
  (∀ (xs : List Nozzle) (n : Nat) (x : Nozzle) (m : Nat), substituteOf xs n x = some m ↔
     ∃ d y, x.sub = some d ∧ (m : Int) = n + d ∧ xs[m]? = some y ∧ y.state = .good) ∧
  (∀ (xs : List Nozzle) (spots : List Spot),
     let donors := donorsFrom xs 0 spots
     let donates := fun (y : Spot) => y.entry.state.unfit && y.level != .l0
     donors.length = spots.countP donates ∧
     (∀ dest v, (dest, v) ∈ donors ↔
       ∃ n y, spots[n]? = some y ∧ donates y = true ∧ v = y.level ∧ dest = substituteOf xs n y.entry) ∧
     ∀ (n : Nat) (y : Spot), let v := afterSubstitution donors n y
       (y.entry.state.unfit = true → v = .l0) ∧
       (y.entry.state.unfit = false → y.level.val ≤ v.val ∧ (∀ w, (some n, w) ∈ donors → w.val ≤ v.val) ∧
         (v = y.level ∨ (some n, v) ∈ donors))) ∧
  (∀ (f : BarFields) (row first : Nat) (part : Bool) (xs : List Nozzle) (ps : List Partner) (vs : List Level),
     let spots := spotsFrom f.handover row part first xs ps vs
     let donors := donorsFrom xs 0 spots
     let share := headShare f row first part xs ps vs
     (∀ n x p v, xs[n]? = some x → ps[n]? = some p → vs[n]? = some v →
       let y : Spot := ⟨x, p, v, if holds f.handover row (first + n) part x p then v else .l0⟩
       let given := trimmed x (afterSubstitution donors n y)
       spots[n]? = some y ∧ share.drops[n]? = some (keepWetDrop .page f x given.1) ∧ share.accs[n]? = some given.2) ∧
     share.substituted = donors.countP (·.1.isSome) ∧
     share.lost = donors.countP (·.1.isNone) + spots.countP (fun y => y.pixel != .l0 && match y.partner with
       | .sole => !part
       | .right _ _ other _ => !part && !other
       | .left _ _ _ _ => false)) ∧
  (∀ (s : State) (b : BarId) (pl : PageLoad) (st : PartStatus),
     let out := shares pl.fields pl.row (match st with | .present x => some x | _ => none) none
       (s.assignHeads b pl.view pl.page pl.row)
     let t := s.assignPage b pl st
     let lost := (out.map (·.2.lost)).sum
     let sub := (out.map (·.2.substituted)).sum
     t = ((s.setPages t.queue.pages).modBar b fun x =>
       { x with
         next := .page
           { pl with waiting := false, lost := lost, substituted := sub, added := !s.queue.suppress } }).setLanes
       t.lanes ∧
     t.queue.pages = s.queue.pages.map (fun q => if q.id = pl.page ∧ s.queue.suppress = false then
         { q with
           lost := min 4294967295 (q.lost + lost), substituted := min 4294967295 (q.substituted + sub)
           degraded := q.degraded || decide (1 ≤ lost) }
       else q) ∧
     (∀ hd share, (hd, share) ∈ out → hd.takesPart = true → t.lane hd.lane = { s.lane hd.lane with
       nozzles := List.zipWith (fun x acc => { x with acc := acc }) (s.lane hd.lane).nozzles share.accs
       load := (s.lane hd.lane).load.map fun ld =>
         { ld with drops := share.drops, stage := if st = .blank then .transfer else .readWait } }) ∧
     ∀ h, (∀ hd share, (hd, share) ∈ out → hd.lane = h → hd.takesPart = false) → t.lane h = s.lane h) ∧
  ((∀ (f : BarFields) (row first : Nat) (part : Bool) (xs : List Nozzle) (ps : List Partner) (vs : List Level)
       (n : Nat) (x : Nozzle) (d : Drop),
     (headShare f row first part xs ps vs).drops[n]? = some d → xs[n]? = some x →
     x.state ≠ .good → x.state ≠ .weak → d = ⟨.l0, .plain⟩) ∧
   ∀ (kind : RowKind) (f : BarFields) (xs : List Nozzle) (vs : List Level) (n : Nat) (x : Nozzle),
     (∀ v, xs[n]? = some x → vs[n]? = some v → (rowDrops kind f xs vs)[n]? =
       some (keepWetDrop kind f x (if x.state = .good ∨ x.state = .weak then v else .l0))) ∧
     ∀ d, (rowDrops kind f xs vs)[n]? = some d → xs[n]? = some x →
       x.state ≠ .good → x.state ≠ .weak → d = ⟨.l0, .plain⟩)
end

