-- ==== Sys2Proof/Laws/State.lean ====
section
/-! SUPPORT. What each field update of State gives at each field, and how the values of a bar, a lane, a link are
read back. -/

namespace Sys2Proof.Machine

@[simp] theorem setPosition_position (s : State) x : (s.setPosition x).position = x := rfl
@[simp] theorem setPosition_queue (s : State) x : (s.setPosition x).queue = s.queue := rfl
@[simp] theorem setPosition_ring (s : State) x : (s.setPosition x).ring = s.ring := rfl
@[simp] theorem setPosition_bars (s : State) x : (s.setPosition x).bars = s.bars := rfl
@[simp] theorem setPosition_lanes (s : State) x : (s.setPosition x).lanes = s.lanes := rfl
@[simp] theorem setPosition_lists (s : State) x : (s.setPosition x).lists = s.lists := rfl
@[simp] theorem setPosition_library (s : State) x : (s.setPosition x).library = s.library := rfl
@[simp] theorem setPosition_links (s : State) x : (s.setPosition x).links = s.links := rfl
@[simp] theorem setPosition_sent (s : State) x : (s.setPosition x).sent = s.sent := rfl
@[simp] theorem setPosition_fresh (s : State) x : (s.setPosition x).fresh = s.fresh := rfl
@[simp] theorem setPosition_pending (s : State) x : (s.setPosition x).pending = s.pending := rfl

@[simp] theorem setQueue_position (s : State) x : (s.setQueue x).position = s.position := rfl
@[simp] theorem setQueue_queue (s : State) x : (s.setQueue x).queue = x := rfl
@[simp] theorem setQueue_ring (s : State) x : (s.setQueue x).ring = s.ring := rfl
@[simp] theorem setQueue_bars (s : State) x : (s.setQueue x).bars = s.bars := rfl
@[simp] theorem setQueue_lanes (s : State) x : (s.setQueue x).lanes = s.lanes := rfl
@[simp] theorem setQueue_lists (s : State) x : (s.setQueue x).lists = s.lists := rfl
@[simp] theorem setQueue_library (s : State) x : (s.setQueue x).library = s.library := rfl
@[simp] theorem setQueue_links (s : State) x : (s.setQueue x).links = s.links := rfl
@[simp] theorem setQueue_sent (s : State) x : (s.setQueue x).sent = s.sent := rfl
@[simp] theorem setQueue_fresh (s : State) x : (s.setQueue x).fresh = s.fresh := rfl
@[simp] theorem setQueue_pending (s : State) x : (s.setQueue x).pending = s.pending := rfl

@[simp] theorem setRing_position (s : State) x : (s.setRing x).position = s.position := rfl
@[simp] theorem setRing_queue (s : State) x : (s.setRing x).queue = s.queue := rfl
@[simp] theorem setRing_ring (s : State) x : (s.setRing x).ring = x := rfl
@[simp] theorem setRing_bars (s : State) x : (s.setRing x).bars = s.bars := rfl
@[simp] theorem setRing_lanes (s : State) x : (s.setRing x).lanes = s.lanes := rfl
@[simp] theorem setRing_lists (s : State) x : (s.setRing x).lists = s.lists := rfl
@[simp] theorem setRing_library (s : State) x : (s.setRing x).library = s.library := rfl
@[simp] theorem setRing_links (s : State) x : (s.setRing x).links = s.links := rfl
@[simp] theorem setRing_sent (s : State) x : (s.setRing x).sent = s.sent := rfl
@[simp] theorem setRing_fresh (s : State) x : (s.setRing x).fresh = s.fresh := rfl
@[simp] theorem setRing_pending (s : State) x : (s.setRing x).pending = s.pending := rfl

@[simp] theorem setBars_position (s : State) x : (s.setBars x).position = s.position := rfl
@[simp] theorem setBars_queue (s : State) x : (s.setBars x).queue = s.queue := rfl
@[simp] theorem setBars_ring (s : State) x : (s.setBars x).ring = s.ring := rfl
@[simp] theorem setBars_bars (s : State) x : (s.setBars x).bars = x := rfl
@[simp] theorem setBars_lanes (s : State) x : (s.setBars x).lanes = s.lanes := rfl
@[simp] theorem setBars_lists (s : State) x : (s.setBars x).lists = s.lists := rfl
@[simp] theorem setBars_library (s : State) x : (s.setBars x).library = s.library := rfl
@[simp] theorem setBars_links (s : State) x : (s.setBars x).links = s.links := rfl
@[simp] theorem setBars_sent (s : State) x : (s.setBars x).sent = s.sent := rfl
@[simp] theorem setBars_fresh (s : State) x : (s.setBars x).fresh = s.fresh := rfl
@[simp] theorem setBars_pending (s : State) x : (s.setBars x).pending = s.pending := rfl

@[simp] theorem setLanes_position (s : State) x : (s.setLanes x).position = s.position := rfl
@[simp] theorem setLanes_queue (s : State) x : (s.setLanes x).queue = s.queue := rfl
@[simp] theorem setLanes_ring (s : State) x : (s.setLanes x).ring = s.ring := rfl
@[simp] theorem setLanes_bars (s : State) x : (s.setLanes x).bars = s.bars := rfl
@[simp] theorem setLanes_lanes (s : State) x : (s.setLanes x).lanes = x := rfl
@[simp] theorem setLanes_lists (s : State) x : (s.setLanes x).lists = s.lists := rfl
@[simp] theorem setLanes_library (s : State) x : (s.setLanes x).library = s.library := rfl
@[simp] theorem setLanes_links (s : State) x : (s.setLanes x).links = s.links := rfl
@[simp] theorem setLanes_sent (s : State) x : (s.setLanes x).sent = s.sent := rfl
@[simp] theorem setLanes_fresh (s : State) x : (s.setLanes x).fresh = s.fresh := rfl
@[simp] theorem setLanes_pending (s : State) x : (s.setLanes x).pending = s.pending := rfl

@[simp] theorem setLists_position (s : State) x : (s.setLists x).position = s.position := rfl
@[simp] theorem setLists_queue (s : State) x : (s.setLists x).queue = s.queue := rfl
@[simp] theorem setLists_ring (s : State) x : (s.setLists x).ring = s.ring := rfl
@[simp] theorem setLists_bars (s : State) x : (s.setLists x).bars = s.bars := rfl
@[simp] theorem setLists_lanes (s : State) x : (s.setLists x).lanes = s.lanes := rfl
@[simp] theorem setLists_lists (s : State) x : (s.setLists x).lists = x := rfl
@[simp] theorem setLists_library (s : State) x : (s.setLists x).library = s.library := rfl
@[simp] theorem setLists_links (s : State) x : (s.setLists x).links = s.links := rfl
@[simp] theorem setLists_sent (s : State) x : (s.setLists x).sent = s.sent := rfl
@[simp] theorem setLists_fresh (s : State) x : (s.setLists x).fresh = s.fresh := rfl
@[simp] theorem setLists_pending (s : State) x : (s.setLists x).pending = s.pending := rfl

@[simp] theorem setLibrary_position (s : State) x : (s.setLibrary x).position = s.position := rfl
@[simp] theorem setLibrary_queue (s : State) x : (s.setLibrary x).queue = s.queue := rfl
@[simp] theorem setLibrary_ring (s : State) x : (s.setLibrary x).ring = s.ring := rfl
@[simp] theorem setLibrary_bars (s : State) x : (s.setLibrary x).bars = s.bars := rfl
@[simp] theorem setLibrary_lanes (s : State) x : (s.setLibrary x).lanes = s.lanes := rfl
@[simp] theorem setLibrary_lists (s : State) x : (s.setLibrary x).lists = s.lists := rfl
@[simp] theorem setLibrary_library (s : State) x : (s.setLibrary x).library = x := rfl
@[simp] theorem setLibrary_links (s : State) x : (s.setLibrary x).links = s.links := rfl
@[simp] theorem setLibrary_sent (s : State) x : (s.setLibrary x).sent = s.sent := rfl
@[simp] theorem setLibrary_fresh (s : State) x : (s.setLibrary x).fresh = s.fresh := rfl
@[simp] theorem setLibrary_pending (s : State) x : (s.setLibrary x).pending = s.pending := rfl

@[simp] theorem setLinks_position (s : State) x : (s.setLinks x).position = s.position := rfl
@[simp] theorem setLinks_queue (s : State) x : (s.setLinks x).queue = s.queue := rfl
@[simp] theorem setLinks_ring (s : State) x : (s.setLinks x).ring = s.ring := rfl
@[simp] theorem setLinks_bars (s : State) x : (s.setLinks x).bars = s.bars := rfl
@[simp] theorem setLinks_lanes (s : State) x : (s.setLinks x).lanes = s.lanes := rfl
@[simp] theorem setLinks_lists (s : State) x : (s.setLinks x).lists = s.lists := rfl
@[simp] theorem setLinks_library (s : State) x : (s.setLinks x).library = s.library := rfl
@[simp] theorem setLinks_links (s : State) x : (s.setLinks x).links = x := rfl
@[simp] theorem setLinks_sent (s : State) x : (s.setLinks x).sent = s.sent := rfl
@[simp] theorem setLinks_fresh (s : State) x : (s.setLinks x).fresh = s.fresh := rfl
@[simp] theorem setLinks_pending (s : State) x : (s.setLinks x).pending = s.pending := rfl

@[simp] theorem setSent_position (s : State) x : (s.setSent x).position = s.position := rfl
@[simp] theorem setSent_queue (s : State) x : (s.setSent x).queue = s.queue := rfl
@[simp] theorem setSent_ring (s : State) x : (s.setSent x).ring = s.ring := rfl
@[simp] theorem setSent_bars (s : State) x : (s.setSent x).bars = s.bars := rfl
@[simp] theorem setSent_lanes (s : State) x : (s.setSent x).lanes = s.lanes := rfl
@[simp] theorem setSent_lists (s : State) x : (s.setSent x).lists = s.lists := rfl
@[simp] theorem setSent_library (s : State) x : (s.setSent x).library = s.library := rfl
@[simp] theorem setSent_links (s : State) x : (s.setSent x).links = s.links := rfl
@[simp] theorem setSent_sent (s : State) x : (s.setSent x).sent = x := rfl
@[simp] theorem setSent_fresh (s : State) x : (s.setSent x).fresh = s.fresh := rfl
@[simp] theorem setSent_pending (s : State) x : (s.setSent x).pending = s.pending := rfl

@[simp] theorem setFresh_position (s : State) x : (s.setFresh x).position = s.position := rfl
@[simp] theorem setFresh_queue (s : State) x : (s.setFresh x).queue = s.queue := rfl
@[simp] theorem setFresh_ring (s : State) x : (s.setFresh x).ring = s.ring := rfl
@[simp] theorem setFresh_bars (s : State) x : (s.setFresh x).bars = s.bars := rfl
@[simp] theorem setFresh_lanes (s : State) x : (s.setFresh x).lanes = s.lanes := rfl
@[simp] theorem setFresh_lists (s : State) x : (s.setFresh x).lists = s.lists := rfl
@[simp] theorem setFresh_library (s : State) x : (s.setFresh x).library = s.library := rfl
@[simp] theorem setFresh_links (s : State) x : (s.setFresh x).links = s.links := rfl
@[simp] theorem setFresh_sent (s : State) x : (s.setFresh x).sent = s.sent := rfl
@[simp] theorem setFresh_fresh (s : State) x : (s.setFresh x).fresh = x := rfl
@[simp] theorem setFresh_pending (s : State) x : (s.setFresh x).pending = s.pending := rfl

@[simp] theorem setPending_position (s : State) x : (s.setPending x).position = s.position := rfl
@[simp] theorem setPending_queue (s : State) x : (s.setPending x).queue = s.queue := rfl
@[simp] theorem setPending_ring (s : State) x : (s.setPending x).ring = s.ring := rfl
@[simp] theorem setPending_bars (s : State) x : (s.setPending x).bars = s.bars := rfl
@[simp] theorem setPending_lanes (s : State) x : (s.setPending x).lanes = s.lanes := rfl
@[simp] theorem setPending_lists (s : State) x : (s.setPending x).lists = s.lists := rfl
@[simp] theorem setPending_library (s : State) x : (s.setPending x).library = s.library := rfl
@[simp] theorem setPending_links (s : State) x : (s.setPending x).links = s.links := rfl
@[simp] theorem setPending_sent (s : State) x : (s.setPending x).sent = s.sent := rfl
@[simp] theorem setPending_fresh (s : State) x : (s.setPending x).fresh = s.fresh := rfl
@[simp] theorem setPending_pending (s : State) x : (s.setPending x).pending = x := rfl

/-- Reading back the value just written. -/
@[simp] theorem PerBar.get_set_same (x : PerBar α) (i : BarId) (v : α) : (x.set i v).get i = v := by
  cases i <;> rfl

/-- A write changes no other value. -/
theorem PerBar.get_set_ne (x : PerBar α) {i j : BarId} (v : α) (h : j ≠ i) : (x.set i v).get j = x.get j := by
  cases i <;> cases j <;> first | rfl | exact absurd rfl h

/-- Writing and reading, in one equation. -/
theorem PerBar.get_set (x : PerBar α) (i j : BarId) (v : α) :
    (x.set i v).get j = if j = i then v else x.get j := by
  by_cases h : j = i
  · subst h; simp
  · simp [PerBar.get_set_ne x v h, h]

@[simp] theorem PerBar.get_map (f : α → β) (x : PerBar α) (i : BarId) : (x.map f).get i = f (x.get i) := by
  cases i <;> rfl

/-- Two families of values are equal when they agree everywhere. -/
theorem PerBar.ext_get (x y : PerBar α) (h : ∀ i, x.get i = y.get i) : x = y := by
  cases x; cases y
  have h0 := h .b0
  have h1 := h .b1
  have h2 := h .b2
  have h3 := h .b3
  simp only [PerBar.get] at *
  simp [*]

@[simp] theorem PerBar.get_ofFn (f : BarId → α) (i : BarId) : (PerBar.ofFn f).get i = f i := by
  cases i <;> rfl

@[simp] theorem PerBar.get_all (v : α) (i : BarId) : (PerBar.all v).get i = v := by
  cases i <;> rfl

@[simp] theorem PerBar.set_get_self (x : PerBar α) (i : BarId) : x.set i (x.get i) = x := by
  cases i <;> rfl

/-- Reading back the value just written. -/
@[simp] theorem PerLane.get_set_same (x : PerLane α) (i : LaneId) (v : α) : (x.set i v).get i = v := by
  cases i <;> rfl

/-- A write changes no other value. -/
theorem PerLane.get_set_ne (x : PerLane α) {i j : LaneId} (v : α) (h : j ≠ i) : (x.set i v).get j = x.get j := by
  cases i <;> cases j <;> first | rfl | exact absurd rfl h

/-- Writing and reading, in one equation. -/
theorem PerLane.get_set (x : PerLane α) (i j : LaneId) (v : α) :
    (x.set i v).get j = if j = i then v else x.get j := by
  by_cases h : j = i
  · subst h; simp
  · simp [PerLane.get_set_ne x v h, h]

@[simp] theorem PerLane.get_map (f : α → β) (x : PerLane α) (i : LaneId) : (x.map f).get i = f (x.get i) := by
  cases i <;> rfl

/-- Two families of values are equal when they agree everywhere. -/
theorem PerLane.ext_get (x y : PerLane α) (h : ∀ i, x.get i = y.get i) : x = y := by
  cases x; cases y
  have h0 := h .hl0
  have h1 := h .hl1
  have h2 := h .hl2
  have h3 := h .hl3
  have h4 := h .hl4
  have h5 := h .hl5
  have h6 := h .hl6
  have h7 := h .hl7
  simp only [PerLane.get] at *
  simp [*]

@[simp] theorem PerLane.get_ofFn (f : LaneId → α) (i : LaneId) : (PerLane.ofFn f).get i = f i := by
  cases i <;> rfl

@[simp] theorem PerLane.get_all (v : α) (i : LaneId) : (PerLane.all v).get i = v := by
  cases i <;> rfl

@[simp] theorem PerLane.set_get_self (x : PerLane α) (i : LaneId) : x.set i (x.get i) = x := by
  cases i <;> rfl

/-- Reading back the value just written. -/
@[simp] theorem PerLink.get_set_same (x : PerLink α) (i : LinkId) (v : α) : (x.set i v).get i = v := by
  cases i <;> rfl

/-- A write changes no other value. -/
theorem PerLink.get_set_ne (x : PerLink α) {i j : LinkId} (v : α) (h : j ≠ i) : (x.set i v).get j = x.get j := by
  cases i <;> cases j <;> first | rfl | exact absurd rfl h

/-- Writing and reading, in one equation. -/
theorem PerLink.get_set (x : PerLink α) (i j : LinkId) (v : α) :
    (x.set i v).get j = if j = i then v else x.get j := by
  by_cases h : j = i
  · subst h; simp
  · simp [PerLink.get_set_ne x v h, h]

@[simp] theorem PerLink.get_map (f : α → β) (x : PerLink α) (i : LinkId) : (x.map f).get i = f (x.get i) := by
  cases i <;> rfl

/-- Two families of values are equal when they agree everywhere. -/
theorem PerLink.ext_get (x y : PerLink α) (h : ∀ i, x.get i = y.get i) : x = y := by
  cases x; cases y
  have h0 := h .image
  have h1 := h .motion
  have h2 := h .service
  simp only [PerLink.get] at *
  simp [*]

@[simp] theorem PerLink.set_get_self (x : PerLink α) (i : LinkId) : x.set i (x.get i) = x := by
  cases i <;> rfl

@[simp] theorem modBar_bar_same (s : State) (i : BarId) f : (s.modBar i f).bar i = f (s.bar i) := by
  simp [State.modBar, State.bar]

theorem modBar_bar_ne (s : State) {i j : BarId} f (h : j ≠ i) : (s.modBar i f).bar j = s.bar j := by
  simp [State.modBar, State.bar, PerBar.get_set_ne _ _ h]

@[simp] theorem modBar_position (s : State) (i : BarId) f : (s.modBar i f).position = s.position := rfl
@[simp] theorem modBar_queue (s : State) (i : BarId) f : (s.modBar i f).queue = s.queue := rfl
@[simp] theorem modBar_ring (s : State) (i : BarId) f : (s.modBar i f).ring = s.ring := rfl
@[simp] theorem modBar_lanes (s : State) (i : BarId) f : (s.modBar i f).lanes = s.lanes := rfl
@[simp] theorem modBar_lists (s : State) (i : BarId) f : (s.modBar i f).lists = s.lists := rfl
@[simp] theorem modBar_library (s : State) (i : BarId) f : (s.modBar i f).library = s.library := rfl
@[simp] theorem modBar_links (s : State) (i : BarId) f : (s.modBar i f).links = s.links := rfl
@[simp] theorem modBar_sent (s : State) (i : BarId) f : (s.modBar i f).sent = s.sent := rfl
@[simp] theorem modBar_fresh (s : State) (i : BarId) f : (s.modBar i f).fresh = s.fresh := rfl
@[simp] theorem modBar_pending (s : State) (i : BarId) f : (s.modBar i f).pending = s.pending := rfl

@[simp] theorem modLane_lane_same (s : State) (i : LaneId) f : (s.modLane i f).lane i = f (s.lane i) := by
  simp [State.modLane, State.lane]

theorem modLane_lane_ne (s : State) {i j : LaneId} f (h : j ≠ i) : (s.modLane i f).lane j = s.lane j := by
  simp [State.modLane, State.lane, PerLane.get_set_ne _ _ h]

@[simp] theorem modLane_position (s : State) (i : LaneId) f : (s.modLane i f).position = s.position := rfl
@[simp] theorem modLane_queue (s : State) (i : LaneId) f : (s.modLane i f).queue = s.queue := rfl
@[simp] theorem modLane_ring (s : State) (i : LaneId) f : (s.modLane i f).ring = s.ring := rfl
@[simp] theorem modLane_bars (s : State) (i : LaneId) f : (s.modLane i f).bars = s.bars := rfl
@[simp] theorem modLane_lists (s : State) (i : LaneId) f : (s.modLane i f).lists = s.lists := rfl
@[simp] theorem modLane_library (s : State) (i : LaneId) f : (s.modLane i f).library = s.library := rfl
@[simp] theorem modLane_links (s : State) (i : LaneId) f : (s.modLane i f).links = s.links := rfl
@[simp] theorem modLane_sent (s : State) (i : LaneId) f : (s.modLane i f).sent = s.sent := rfl
@[simp] theorem modLane_fresh (s : State) (i : LaneId) f : (s.modLane i f).fresh = s.fresh := rfl
@[simp] theorem modLane_pending (s : State) (i : LaneId) f : (s.modLane i f).pending = s.pending := rfl

@[simp] theorem modLink_link_same (s : State) (i : LinkId) f : (s.modLink i f).link i = f (s.link i) := by
  simp [State.modLink, State.link]

theorem modLink_link_ne (s : State) {i j : LinkId} f (h : j ≠ i) : (s.modLink i f).link j = s.link j := by
  simp [State.modLink, State.link, PerLink.get_set_ne _ _ h]

@[simp] theorem modLink_position (s : State) (i : LinkId) f : (s.modLink i f).position = s.position := rfl
@[simp] theorem modLink_queue (s : State) (i : LinkId) f : (s.modLink i f).queue = s.queue := rfl
@[simp] theorem modLink_ring (s : State) (i : LinkId) f : (s.modLink i f).ring = s.ring := rfl
@[simp] theorem modLink_bars (s : State) (i : LinkId) f : (s.modLink i f).bars = s.bars := rfl
@[simp] theorem modLink_lanes (s : State) (i : LinkId) f : (s.modLink i f).lanes = s.lanes := rfl
@[simp] theorem modLink_lists (s : State) (i : LinkId) f : (s.modLink i f).lists = s.lists := rfl
@[simp] theorem modLink_library (s : State) (i : LinkId) f : (s.modLink i f).library = s.library := rfl
@[simp] theorem modLink_sent (s : State) (i : LinkId) f : (s.modLink i f).sent = s.sent := rfl
@[simp] theorem modLink_fresh (s : State) (i : LinkId) f : (s.modLink i f).fresh = s.fresh := rfl
@[simp] theorem modLink_pending (s : State) (i : LinkId) f : (s.modLink i f).pending = s.pending := rfl

@[simp] theorem setPages_position (s : State) x : (s.setPages x).position = s.position := rfl
@[simp] theorem setPages_ring (s : State) x : (s.setPages x).ring = s.ring := rfl
@[simp] theorem setPages_bars (s : State) x : (s.setPages x).bars = s.bars := rfl
@[simp] theorem setPages_lanes (s : State) x : (s.setPages x).lanes = s.lanes := rfl
@[simp] theorem setPages_lists (s : State) x : (s.setPages x).lists = s.lists := rfl
@[simp] theorem setPages_library (s : State) x : (s.setPages x).library = s.library := rfl
@[simp] theorem setPages_links (s : State) x : (s.setPages x).links = s.links := rfl
@[simp] theorem setPages_sent (s : State) x : (s.setPages x).sent = s.sent := rfl
@[simp] theorem setPages_fresh (s : State) x : (s.setPages x).fresh = s.fresh := rfl
@[simp] theorem setPages_pending (s : State) x : (s.setPages x).pending = s.pending := rfl
@[simp] theorem setRows_position (s : State) x : (s.setRows x).position = s.position := rfl
@[simp] theorem setRows_queue (s : State) x : (s.setRows x).queue = s.queue := rfl
@[simp] theorem setRows_bars (s : State) x : (s.setRows x).bars = s.bars := rfl
@[simp] theorem setRows_lanes (s : State) x : (s.setRows x).lanes = s.lanes := rfl
@[simp] theorem setRows_lists (s : State) x : (s.setRows x).lists = s.lists := rfl
@[simp] theorem setRows_library (s : State) x : (s.setRows x).library = s.library := rfl
@[simp] theorem setRows_links (s : State) x : (s.setRows x).links = s.links := rfl
@[simp] theorem setRows_sent (s : State) x : (s.setRows x).sent = s.sent := rfl
@[simp] theorem setRows_fresh (s : State) x : (s.setRows x).fresh = s.fresh := rfl
@[simp] theorem setRows_pending (s : State) x : (s.setRows x).pending = s.pending := rfl
@[simp] theorem setPages_pages (s : State) x : (s.setPages x).queue.pages = x := rfl
@[simp] theorem setPages_ready (s : State) x : (s.setPages x).queue.ready = s.queue.ready := rfl
@[simp] theorem setPages_suppress (s : State) x : (s.setPages x).queue.suppress = s.queue.suppress := rfl
@[simp] theorem setPages_readyMargin (s : State) x :
    (s.setPages x).queue.readyMargin = s.queue.readyMargin := rfl
@[simp] theorem setRows_rows (s : State) x : (s.setRows x).ring.rows = x := rfl
@[simp] theorem setRows_roomMark (s : State) x : (s.setRows x).ring.roomMark = s.ring.roomMark := rfl
@[simp] theorem setRows_store (s : State) x : (s.setRows x).ring.store = s.ring.store := rfl

@[simp] theorem modPage_position (s : State) id f : (s.modPage id f).position = s.position := rfl
@[simp] theorem modPage_ring (s : State) id f : (s.modPage id f).ring = s.ring := rfl
@[simp] theorem modPage_bars (s : State) id f : (s.modPage id f).bars = s.bars := rfl
@[simp] theorem modPage_lanes (s : State) id f : (s.modPage id f).lanes = s.lanes := rfl
@[simp] theorem modPage_lists (s : State) id f : (s.modPage id f).lists = s.lists := rfl
@[simp] theorem modPage_library (s : State) id f : (s.modPage id f).library = s.library := rfl
@[simp] theorem modPage_links (s : State) id f : (s.modPage id f).links = s.links := rfl
@[simp] theorem modPage_sent (s : State) id f : (s.modPage id f).sent = s.sent := rfl
@[simp] theorem modPage_fresh (s : State) id f : (s.modPage id f).fresh = s.fresh := rfl
@[simp] theorem modPage_pending (s : State) id f : (s.modPage id f).pending = s.pending := rfl
@[simp] theorem raise_position (s : State) l f : (s.raise l f).position = s.position := rfl
@[simp] theorem raise_queue (s : State) l f : (s.raise l f).queue = s.queue := rfl
@[simp] theorem raise_ring (s : State) l f : (s.raise l f).ring = s.ring := rfl
@[simp] theorem raise_bars (s : State) l f : (s.raise l f).bars = s.bars := rfl
@[simp] theorem raise_lanes (s : State) l f : (s.raise l f).lanes = s.lanes := rfl
@[simp] theorem raise_lists (s : State) l f : (s.raise l f).lists = s.lists := rfl
@[simp] theorem raise_library (s : State) l f : (s.raise l f).library = s.library := rfl
@[simp] theorem raise_sent (s : State) l f : (s.raise l f).sent = s.sent := rfl
@[simp] theorem raise_fresh (s : State) l f : (s.raise l f).fresh = s.fresh := rfl
@[simp] theorem raise_pending (s : State) l f : (s.raise l f).pending = s.pending := rfl

/-- A flag raised on a link: set there, and nothing else of any link changes (R181). -/
theorem raise_link (s : State) (l m : LinkId) (f : FlagName) :
    (s.raise l f).link m =
      if m = l then { s.link m with flags := (s.link m).flags ||| flagBit l f } else s.link m := by
  by_cases h : m = l
  · subst h; simp [State.raise]
  · simp [State.raise, modLink_link_ne _ _ h, h]

end Sys2Proof.Machine
end

