-- ==== Sys2Proof/Laws/Events.lean ====
section
/-! SUPPORT. What ends every event: ROOM, READY and the attention outputs, and nothing else. -/

namespace Sys2Proof.Machine

/-! ### driveAttention -/

@[simp] theorem driveAttention_position (s : State) : s.driveAttention.position = s.position := rfl
@[simp] theorem driveAttention_queue (s : State) : s.driveAttention.queue = s.queue := rfl
@[simp] theorem driveAttention_ring (s : State) : s.driveAttention.ring = s.ring := rfl
@[simp] theorem driveAttention_bars (s : State) : s.driveAttention.bars = s.bars := rfl
@[simp] theorem driveAttention_lanes (s : State) : s.driveAttention.lanes = s.lanes := rfl
@[simp] theorem driveAttention_lists (s : State) : s.driveAttention.lists = s.lists := rfl
@[simp] theorem driveAttention_library (s : State) : s.driveAttention.library = s.library := rfl
@[simp] theorem driveAttention_sent (s : State) : s.driveAttention.sent = s.sent := rfl
@[simp] theorem driveAttention_fresh (s : State) : s.driveAttention.fresh = s.fresh := rfl
@[simp] theorem driveAttention_pending (s : State) : s.driveAttention.pending = s.pending := rfl

/-- Each attention output follows the flags and mask of its link. -/
theorem driveAttention_link (s : State) (l : LinkId) :
    s.driveAttention.link l = { s.link l with attn := (s.link l).attention } := by
  simp [State.driveAttention, State.link]

/-- Links whose outputs already follow are left as they are. -/
theorem driveAttention_eq_self (s : State) (h : ∀ l, (s.link l).attn = (s.link l).attention) :
    s.driveAttention = s := by
  have hl : s.links.map (fun k => { k with attn := k.attention }) = s.links := by
    apply PerLink.ext_get
    intro i
    have := h i
    simp only [State.link] at this
    rw [PerLink.get_map, ← this]
  simp [State.driveAttention, State.setLinks, hl]

/-! ### raiseRoom -/

@[simp] theorem raiseRoom_position (s : State) n : (s.raiseRoom n).position = s.position := by
  unfold State.raiseRoom; split <;> rfl
@[simp] theorem raiseRoom_queue (s : State) n : (s.raiseRoom n).queue = s.queue := by
  unfold State.raiseRoom; split <;> rfl
@[simp] theorem raiseRoom_ring (s : State) n : (s.raiseRoom n).ring = s.ring := by
  unfold State.raiseRoom; split <;> rfl
@[simp] theorem raiseRoom_bars (s : State) n : (s.raiseRoom n).bars = s.bars := by
  unfold State.raiseRoom; split <;> rfl
@[simp] theorem raiseRoom_lanes (s : State) n : (s.raiseRoom n).lanes = s.lanes := by
  unfold State.raiseRoom; split <;> rfl
@[simp] theorem raiseRoom_lists (s : State) n : (s.raiseRoom n).lists = s.lists := by
  unfold State.raiseRoom; split <;> rfl
@[simp] theorem raiseRoom_library (s : State) n : (s.raiseRoom n).library = s.library := by
  unfold State.raiseRoom; split <;> rfl
@[simp] theorem raiseRoom_sent (s : State) n : (s.raiseRoom n).sent = s.sent := by
  unfold State.raiseRoom; split <;> rfl
@[simp] theorem raiseRoom_fresh (s : State) n : (s.raiseRoom n).fresh = s.fresh := by
  unfold State.raiseRoom; split <;> rfl
@[simp] theorem raiseRoom_pending (s : State) n : (s.raiseRoom n).pending = s.pending := by
  unfold State.raiseRoom; split <;> rfl

/-- ROOM is raised exactly where the count has risen from below the mark to it or above (R18). -/
theorem raiseRoom_link (s : State) n (l : LinkId) :
    (s.raiseRoom n).link l =
      if n < s.ring.roomMark ∧ s.ring.roomMark ≤ s.freeSlots ∧ l = .image
      then { s.link l with flags := (s.link l).flags ||| flagBit .image .room } else s.link l := by
  unfold State.raiseRoom
  split
  · rename_i h
    rw [raise_link]
    cases l <;> simp [h.1, h.2]
  · rename_i h
    rw [if_neg (fun hh => h ⟨hh.1, hh.2.1⟩)]

/-! ### driveReady -/

@[simp] theorem driveReady_position (s : State) : s.driveReady.position = s.position := by
  unfold State.driveReady; split <;> rfl
@[simp] theorem driveReady_pages (s : State) : s.driveReady.queue.pages = s.queue.pages := by
  unfold State.driveReady; split <;> rfl
@[simp] theorem driveReady_suppress (s : State) : s.driveReady.queue.suppress = s.queue.suppress := by
  unfold State.driveReady; split <;> rfl
@[simp] theorem driveReady_readyMargin (s : State) :
    s.driveReady.queue.readyMargin = s.queue.readyMargin := by
  unfold State.driveReady; split <;> rfl
@[simp] theorem driveReady_ring (s : State) : s.driveReady.ring = s.ring := by
  unfold State.driveReady; split <;> rfl
@[simp] theorem driveReady_bars (s : State) : s.driveReady.bars = s.bars := by
  unfold State.driveReady; split <;> rfl
@[simp] theorem driveReady_lanes (s : State) : s.driveReady.lanes = s.lanes := by
  unfold State.driveReady; split <;> rfl
@[simp] theorem driveReady_lists (s : State) : s.driveReady.lists = s.lists := by
  unfold State.driveReady; split <;> rfl
@[simp] theorem driveReady_library (s : State) : s.driveReady.library = s.library := by
  unfold State.driveReady; split <;> rfl
@[simp] theorem driveReady_sent (s : State) : s.driveReady.sent = s.sent := by
  unfold State.driveReady; split <;> rfl
@[simp] theorem driveReady_fresh (s : State) : s.driveReady.fresh = s.fresh := by
  unfold State.driveReady; split <;> rfl
@[simp] theorem driveReady_pending (s : State) : s.driveReady.pending = s.pending := by
  unfold State.driveReady; split <;> rfl

/-- READY stands at its condition afterward (R43). -/
theorem driveReady_ready (s : State) : s.driveReady.queue.ready = s.readyCondition := by
  unfold State.driveReady
  split
  · rename_i h; exact h.symm
  · simp

/-- Each change of READY raises READY on the Motion link (R43). -/
theorem driveReady_link (s : State) (l : LinkId) :
    s.driveReady.link l =
      if s.queue.ready ≠ s.readyCondition ∧ l = .motion
      then { s.link l with flags := (s.link l).flags ||| flagBit .motion .ready } else s.link l := by
  unfold State.driveReady
  split
  · rename_i h; rw [if_neg (fun hh => hh.1 h.symm)]
  · rename_i h
    rw [raise_link]
    cases l <;> simp [State.link, Ne.symm h]

/-- The condition of READY reads pages, margin and lanes alone. -/
theorem readyCondition_congr (s t : State) (h : s.queue.pages = t.queue.pages)
    (hm : s.queue.readyMargin = t.queue.readyMargin) (hl : s.lanes = t.lanes) :
    s.readyCondition = t.readyCondition := by
  simp [State.readyCondition, State.armedPage, State.activeLanes, State.lanesOf, State.lane, h, hm, hl]

@[simp] theorem freeSlots_driveReady (s : State) : s.driveReady.freeSlots = s.freeSlots := by
  simp [State.freeSlots]

/-! ### event -/

@[simp] theorem event_position (f) (s : State) : (event f s).position = (f s).position := by simp [event]
@[simp] theorem event_pages (f) (s : State) : (event f s).queue.pages = (f s).queue.pages := by simp [event]
@[simp] theorem event_suppress (f) (s : State) :
    (event f s).queue.suppress = (f s).queue.suppress := by simp [event]
@[simp] theorem event_readyMargin (f) (s : State) :
    (event f s).queue.readyMargin = (f s).queue.readyMargin := by simp [event]
@[simp] theorem event_ring (f) (s : State) : (event f s).ring = (f s).ring := by simp [event]
@[simp] theorem event_bars (f) (s : State) : (event f s).bars = (f s).bars := by simp [event]
@[simp] theorem event_lanes (f) (s : State) : (event f s).lanes = (f s).lanes := by simp [event]
@[simp] theorem event_lists (f) (s : State) : (event f s).lists = (f s).lists := by simp [event]
@[simp] theorem event_library (f) (s : State) : (event f s).library = (f s).library := by simp [event]
@[simp] theorem event_sent (f) (s : State) : (event f s).sent = (f s).sent := by simp [event]
@[simp] theorem event_fresh (f) (s : State) : (event f s).fresh = (f s).fresh := by simp [event]
@[simp] theorem event_pending (f) (s : State) : (event f s).pending = (f s).pending := by simp [event]

/-- READY stands at its condition after every event. -/
theorem event_ready (f) (s : State) : (event f s).queue.ready = (f s).readyCondition := by
  simp only [event, driveAttention_queue, driveReady_ready]
  exact readyCondition_congr _ _ (by simp) (by simp) (by simp)

/-- What an event leaves of a link: the effect's own, with ROOM and READY raised where they are called for, and
the attention output in step. -/
theorem event_link (f) (s : State) (l : LinkId) :
    (event f s).link l =
      let k := (f s).link l
      let room := if s.freeSlots < (f s).ring.roomMark ∧ (f s).ring.roomMark ≤ (f s).freeSlots ∧ l = .image
        then flagBit .image .room else 0
      let ready := if (f s).queue.ready ≠ (f s).readyCondition ∧ l = .motion
        then flagBit .motion .ready else 0
      let k' := { k with flags := k.flags ||| room ||| ready }
      { k' with attn := k'.attention } := by
  have hc : ((f s).raiseRoom s.freeSlots).readyCondition = (f s).readyCondition :=
    readyCondition_congr _ _ (by simp) (by simp) (by simp)
  simp only [event, driveAttention_link, driveReady_link, raiseRoom_link, hc, raiseRoom_queue]
  cases l <;> split <;> split <;> simp_all [Link.attention]

/-- The outputs follow after every event. -/
theorem event_outputsFollow (f) (s : State) : (event f s).outputsFollow := by
  refine ⟨?_, ?_⟩
  · rw [event_ready]
    exact readyCondition_congr _ _ (by simp) (by simp) (by simp)
  · intro l
    rw [event_link]
    rfl

/-- Events with the same effect on a state leave the same state. -/
theorem event_congr {f g : State → State} {s : State} (h : f s = g s) : event f s = event g s := by
  simp only [event, h]

/-- An effect that leaves free slots below the mark or as they were, and the outputs in step, is the whole of
its event. -/
theorem event_eq_self (f) (s : State) (h : (f s).outputsFollow) (hf : (f s).freeSlots = s.freeSlots) :
    event f s = f s := by
  have hr : (f s).raiseRoom s.freeSlots = f s := by
    unfold State.raiseRoom
    rw [if_neg (by omega)]
  have hd : (f s).driveReady = f s := by
    unfold State.driveReady
    rw [if_pos h.1.symm]
  simp only [event, hr, hd]
  exact driveAttention_eq_self _ h.2

end Sys2Proof.Machine
end

