-- ==== Sys2Proof/Laws/Loads.lean ====
section
/-! SUPPORT. Which identify's answer a lane awaits, changing several lanes at once, and what a bar's heads hold when a
load begins. -/

namespace Sys2Proof.Machine

@[simp] theorem identify_exchange (ln : Lane) : ln.identify.exchange = some .identify := rfl
@[simp] theorem identify_identifies (ln : Lane) : ln.identify.identifies = ln.identifies + 1 := rfl
@[simp] theorem identify_probe (ln : Lane) : ln.identify.probe = ln.probe := rfl
@[simp] theorem identify_head (ln : Lane) : ln.identify.head = ln.head := rfl

/-- A lane awaits the answer to the identify in progress, its latest, and to no other. -/
theorem awaits_eq_some (ln : Lane) (i : Nat) (p : Probe) :
    ln.awaits i = some p ↔ ln.exchange = some .identify ∧ ln.identifies = i ∧ ln.probe = some p := by
  unfold Lane.awaits
  split <;> simp_all

/-- After an identify is sent, the answers to the earlier ones are late. -/
theorem awaits_identify_of_earlier (ln : Lane) (i : Nat) (h : i ≤ ln.identifies) : ln.identify.awaits i = none := by
  unfold Lane.awaits
  simp only [identify_exchange, identify_identifies, true_and]
  rw [if_neg (by omega)]

/-- Changing the lanes of a list moves the lanes alone. -/
theorem foldl_modLane_eq (hs : List LaneId) (f : LaneId → Lane → Lane) (s : State) :
    hs.foldl (fun s h => s.modLane h (f h)) s = s.setLanes (hs.foldl (fun s h => s.modLane h (f h)) s).lanes := by
  induction hs generalizing s with
  | nil => rfl
  | cons h hs ih => exact (ih (s.modLane h (f h))).trans rfl

/-- Changing the lanes of a list without repetition changes each of them once, and no other. -/
theorem foldl_modLane_lane (hs : List LaneId) (f : LaneId → Lane → Lane) (s : State) (hn : hs.Nodup) (g : LaneId) :
    (hs.foldl (fun s h => s.modLane h (f h)) s).lane g = if g ∈ hs then f g (s.lane g) else s.lane g := by
  induction hs generalizing s with
  | nil => rfl
  | cons h hs ih =>
    obtain ⟨hh, hn⟩ := List.nodup_cons.1 hn
    simp only [List.foldl_cons, ih _ hn, List.mem_cons]
    by_cases hg : g = h
    · subst hg; simp [hh]
    · simp [hg, modLane_lane_ne]

/-- A bar's ACTIVE lanes are listed once each. -/
theorem activeLanes_nodup (s : State) (b : BarId) : (s.activeLanes b).Nodup :=
  ((by decide : laneIds.Nodup).filter _).filter _

/-- The ACTIVE lanes of a bar, in words. -/
theorem mem_activeLanes (s : State) (b : BarId) (h : LaneId) : h ∈ s.activeLanes b ↔ s.IsActiveAt b h := by
  have hm : h ∈ laneIds := by cases h <;> decide
  simp only [State.activeLanes, State.lanesOf, List.mem_filter, hm, true_and, beq_iff_eq, State.IsActiveAt,
    Lane.onBar]
  cases (s.lane h).assign <;> simp [and_comm]

/-- Beginning a load moves the lanes alone. -/
theorem beginHeads_eq (s : State) (b : BarId) (mk : LaneId → HeadLoad) :
    s.beginHeads b mk = s.setLanes (s.beginHeads b mk).lanes :=
  foldl_modLane_eq _ (fun h ln => { ln with load := some (mk h) }) s

/-- Beginning a load puts a new head load into the latch of each ACTIVE head of the bar. -/
theorem beginHeads_begins (s : State) (b : BarId) (mk : LaneId → HeadLoad) : s.LoadsBegun (s.beginHeads b mk) b mk := by
  intro h
  have := foldl_modLane_lane _ (fun h ln => { ln with load := some (mk h) }) s (activeLanes_nodup s b) h
  rw [State.beginHeads, this, ← mem_activeLanes]
  exact ⟨fun hm => if_pos hm, fun hm => if_neg hm⟩

end Sys2Proof.Machine
end

