-- ==== Sys2Proof/Laws/Heads.lean ====
section
/-! SUPPORT. What a head does at step 1 of a tick moves, and that the ACTIVE heads of a bar each do it once. -/

namespace Sys2Proof.Machine

/-- What one head's part of a tick leaves alone. -/
structure TickFrame (s t : State) : Prop where
  bars : t.bars = s.bars
  ring : t.ring = s.ring
  lists : t.lists = s.lists
  library : t.library = s.library
  fresh : t.fresh = s.fresh
  image : t.links.image = s.links.image
  service : t.links.service = s.links.service
  line : t.position.line = s.position.line
  suppress : t.queue.suppress = s.queue.suppress

theorem TickFrame.refl (s : State) : TickFrame s s := ⟨rfl, rfl, rfl, rfl, rfl, rfl, rfl, rfl, rfl⟩

theorem TickFrame.trans {s t u : State} (h : TickFrame s t) (k : TickFrame t u) : TickFrame s u :=
  ⟨k.bars.trans h.bars, k.ring.trans h.ring, k.lists.trans h.lists, k.library.trans h.library, k.fresh.trans h.fresh,
    k.image.trans h.image, k.service.trans h.service, k.line.trans h.line, k.suppress.trans h.suppress⟩

theorem tickHead_frame (s : State) (kind : RowKind) (limit : Nat) (page : Option Nat) (suppressed waiting : Bool)
    (h : LaneId) : TickFrame s (s.tickHead kind limit page suppressed waiting h) := by
  simp only [State.tickHead]
  cases headOutcome suppressed waiting (s.lane h) <;> cases page <;>
    exact ⟨rfl, rfl, rfl, rfl, rfl, rfl, rfl, rfl, rfl⟩

/-- A head changes no page but its row's, and of that the missed-late and missed-overspeed counters and the degraded
flag alone (R86, R87). -/
theorem tickHead_pages (s : State) (kind : RowKind) (limit : Nat) (page : Option Nat) (suppressed waiting : Bool)
    (h : LaneId) :
    ∃ f : Page → Page, (s.tickHead kind limit page suppressed waiting h).queue.pages =
        s.queue.pages.map (fun p => if page = some p.id then f p else p) ∧
      ∀ p, f p = { p with
        missedLate := (f p).missedLate, missedOverspeed := (f p).missedOverspeed, degraded := (f p).degraded } := by
  have same : ∀ x : List Page, x = x.map fun p => if page = some p.id then p else p := fun x => by simp
  simp only [State.tickHead]
  cases headOutcome suppressed waiting (s.lane h) <;> cases page
  case late.some id =>
    exact ⟨Page.countLate, List.map_congr_left fun p _ => by simp only [beq_iff_eq, Option.some.injEq, @eq_comm Nat id], fun p => rfl⟩
  case overspeed.some id =>
    exact ⟨Page.countOverspeed, List.map_congr_left fun p _ => by simp only [beq_iff_eq, Option.some.injEq, @eq_comm Nat id], fun p => rfl⟩
  all_goals exact ⟨fun p => p, same _, fun p => rfl⟩

/-- A pattern row and a gap row move no page. -/
theorem tickHead_queue (s : State) (kind : RowKind) (limit : Nat) (suppressed waiting : Bool) (h : LaneId) :
    (s.tickHead kind limit none suppressed waiting h).queue = s.queue := by
  simp only [State.tickHead]
  cases headOutcome suppressed waiting (s.lane h) <;> rfl

/-- A relation that one head's part of a tick keeps, the parts of the heads of a list keep. -/
theorem foldl_tickHead_keeps (P : State → Prop) (kind : RowKind) (limit : Nat) (page : Option Nat)
    (suppressed waiting : Bool)
    (hp : ∀ s h, P s → P (s.tickHead kind limit page suppressed waiting h)) (hs : List LaneId) (s : State) (h : P s) :
    P (hs.foldl (fun u h => u.tickHead kind limit page suppressed waiting h) s) := by
  induction hs generalizing s with
  | nil => exact h
  | cons g hs ih => exact ih _ (hp s g h)

theorem headsAct_frame {s t : State} {b : BarId} {kind : RowKind} {page : Option Nat} {suppressed waiting : Bool}
    (h : s.HeadsAct t b kind page suppressed waiting) : TickFrame s t := by
  obtain ⟨hs, _, _, rfl⟩ := h
  exact foldl_tickHead_keeps (TickFrame s) _ _ _ _ _ (fun u g hu => hu.trans (tickHead_frame u _ _ _ _ _ g)) hs s
    (.refl s)

/-- The ACTIVE heads of a bar act once each, under the limit the bar has before any of them acts. -/
theorem tickHeads_acts (s : State) (b : BarId) (kind : RowKind) (page : Option Nat) (suppressed waiting : Bool) :
    s.HeadsAct (s.tickHeads b kind page suppressed waiting) b kind page suppressed waiting := by
  refine ⟨s.activeLanes b, activeLanes_nodup s b, mem_activeLanes s b, ?_⟩
  have fold : ∀ (hs : List LaneId) (u : State), u.bars = s.bars →
      hs.foldl (fun u h => u.tickHead kind (u.bar b).inEffect.limit page suppressed waiting h) u =
        hs.foldl (fun u h => u.tickHead kind (s.bar b).inEffect.limit page suppressed waiting h) u := by
    intro hs
    induction hs with
    | nil => intro u _; rfl
    | cons h hs ih =>
      intro u hu
      have hb : u.bar b = s.bar b := by simp [State.bar, hu]
      simp only [List.foldl_cons, hb]
      exact ih _ ((tickHead_frame u kind _ page suppressed waiting h).bars.trans hu)
  exact fold _ s rfl

end Sys2Proof.Machine
end

