-- ==== Sys2Proof/Laws/Links.lean ====
section
/-! SUPPORT. Where nothing is raised and undelivered, a command is one event; a request that no check of R173
turns away is its act. -/

namespace Sys2Proof.Machine

/-- The parts of quiet. -/
theorem quiet_iff (s : State) :
    s.quiet = true ↔ s.position.tickRaised = false ∧ s.position.autoRaised = false ∧
      ∀ l, (s.link l).quiet = true := by
  simp only [State.quiet, Bool.and_eq_true, Bool.not_eq_true', State.link]
  constructor
  · rintro ⟨⟨⟨⟨h1, h2⟩, h3⟩, h4⟩, h5⟩
    exact ⟨h1, h2, fun l => by cases l <;> assumption⟩
  · rintro ⟨h1, h2, h⟩
    exact ⟨⟨⟨⟨h1, h2⟩, h .image⟩, h .motion⟩, h .service⟩

/-- A quiet link has nothing to settle. -/
theorem settleLink_of_quiet (s : State) (l : LinkId) (h : (s.link l).quiet = true) : s.settleLink l = s := by
  unfold State.settleLink
  unfold Link.quiet at h
  split <;> simp_all

/-- A quiet state has nothing to settle. -/
theorem settle_of_quiet (s : State) (h : s.quiet = true) : s.settle = s := by
  obtain ⟨h1, h2, hl⟩ := (quiet_iff s).1 h
  have ht : s.settleTick = s := by simp [State.settleTick, h1]
  have ha : s.settleAuto = s := by simp [State.settleAuto, h2]
  rw [State.settle, ht, ha, settleLink_of_quiet _ _ (hl _), settleLink_of_quiet _ _ (hl _),
    settleLink_of_quiet _ _ (hl _)]

/-- In a quiet state an event follows at once. -/
theorem after_of_quiet (f) (s : State) (h : s.quiet = true) : s.after f = event f s := by
  rw [State.after, settle_of_quiet s h]

/-- In a quiet state no link is checking a packet, so none is claimed. -/
theorem claim_of_quiet (s : State) (l : LinkId) (mine : Assembler → Bool) (h : s.quiet = true)
    (hm : ∀ bs, overlong bs = false → mine (.receiving bs) = false) (hi : mine .idle = false) :
    s.claim l mine = s := by
  have hq := ((quiet_iff s).1 h).2.2 l
  unfold State.claim
  unfold Link.quiet at hq
  cases ha : (s.link l).assembler <;> simp_all

/-- A request in a quiet state is taken at once. -/
theorem request_of_quiet (s : State) (l : LinkId) (tag : Byte) (n : Nat) (act : Act) (p : List Byte)
    (h : s.quiet = true) :
    s.request l tag n act p = event (fun u => (u.idleAssembler l).take l tag n act p) s := by
  rw [State.request, claim_of_quiet s l _ h (fun _ _ => rfl) rfl, after_of_quiet _ _ h]

/-- Taking a request reads the request in progress alone. -/
theorem turnedAway_idle (s : State) (l : LinkId) (tag : Byte) (n : Nat) :
    (s.idleAssembler l).turnedAway l tag n = s.turnedAway l tag n := by
  simp [State.turnedAway, State.idleAssembler]

/-- A free link turns away no request that may be sent on it. -/
theorem turnedAway_of_hears (s : State) (l : LinkId) (tag : Byte) (n : Nat) (h : s.hears l tag)
    (hn : definedNumber n = true) (hp : permitted n l = true) : s.turnedAway l tag n = none := by
  obtain ⟨_, ht, hb⟩ := h
  rw [State.turnedAway, if_neg ht]
  simp [hn, hp, hb, blocks]

/-- A request on a free link that it may be sent on is its act. -/
theorem request_of_hears (s : State) (l : LinkId) (tag : Byte) (n : Nat) (act : Act) (p : List Byte)
    (h : s.hears l tag) (hn : definedNumber n = true) (hp : permitted n l = true) :
    s.request l tag n act p = s.taken l fun u => act u l tag p := by
  rw [request_of_quiet s l tag n act p h.1, State.taken]
  apply event_congr
  simp only [State.take, turnedAway_idle, turnedAway_of_hears s l tag n h hn hp]

/-! ### idleAssembler and replies -/

@[simp] theorem idleAssembler_position (s : State) l : (s.idleAssembler l).position = s.position := rfl
@[simp] theorem idleAssembler_queue (s : State) l : (s.idleAssembler l).queue = s.queue := rfl
@[simp] theorem idleAssembler_ring (s : State) l : (s.idleAssembler l).ring = s.ring := rfl
@[simp] theorem idleAssembler_bars (s : State) l : (s.idleAssembler l).bars = s.bars := rfl
@[simp] theorem idleAssembler_lanes (s : State) l : (s.idleAssembler l).lanes = s.lanes := rfl
@[simp] theorem idleAssembler_lists (s : State) l : (s.idleAssembler l).lists = s.lists := rfl
@[simp] theorem idleAssembler_library (s : State) l : (s.idleAssembler l).library = s.library := rfl
@[simp] theorem idleAssembler_sent (s : State) l : (s.idleAssembler l).sent = s.sent := rfl
@[simp] theorem idleAssembler_fresh (s : State) l : (s.idleAssembler l).fresh = s.fresh := rfl
@[simp] theorem idleAssembler_pending (s : State) l : (s.idleAssembler l).pending = s.pending := rfl

/-- The assembler of one link is IDLE, and nothing else of any link changes. -/
theorem idleAssembler_link (s : State) (l m : LinkId) :
    (s.idleAssembler l).link m = if m = l then { s.link m with assembler := .idle } else s.link m := by
  by_cases h : m = l
  · subst h; simp [State.idleAssembler]
  · simp [State.idleAssembler, modLink_link_ne _ _ h, h]

@[simp] theorem send_position (s : State) m : (s.send m).position = s.position := rfl
@[simp] theorem send_queue (s : State) m : (s.send m).queue = s.queue := rfl
@[simp] theorem send_ring (s : State) m : (s.send m).ring = s.ring := rfl
@[simp] theorem send_bars (s : State) m : (s.send m).bars = s.bars := rfl
@[simp] theorem send_lanes (s : State) m : (s.send m).lanes = s.lanes := rfl
@[simp] theorem send_lists (s : State) m : (s.send m).lists = s.lists := rfl
@[simp] theorem send_library (s : State) m : (s.send m).library = s.library := rfl
@[simp] theorem send_links (s : State) m : (s.send m).links = s.links := rfl
@[simp] theorem send_fresh (s : State) m : (s.send m).fresh = s.fresh := rfl
@[simp] theorem send_pending (s : State) m : (s.send m).pending = s.pending := rfl
@[simp] theorem send_sent (s : State) m : (s.send m).sent = s.sent ++ [m] := rfl

@[simp] theorem reply_position (s : State) l t st p : (s.reply l t st p).position = s.position := rfl
@[simp] theorem reply_queue (s : State) l t st p : (s.reply l t st p).queue = s.queue := rfl
@[simp] theorem reply_ring (s : State) l t st p : (s.reply l t st p).ring = s.ring := rfl
@[simp] theorem reply_bars (s : State) l t st p : (s.reply l t st p).bars = s.bars := rfl
@[simp] theorem reply_lanes (s : State) l t st p : (s.reply l t st p).lanes = s.lanes := rfl
@[simp] theorem reply_lists (s : State) l t st p : (s.reply l t st p).lists = s.lists := rfl
@[simp] theorem reply_library (s : State) l t st p : (s.reply l t st p).library = s.library := rfl
@[simp] theorem reply_links (s : State) l t st p : (s.reply l t st p).links = s.links := rfl
@[simp] theorem reply_fresh (s : State) l t st p : (s.reply l t st p).fresh = s.fresh := rfl
@[simp] theorem reply_pending (s : State) l t st p : (s.reply l t st p).pending = s.pending := rfl
@[simp] theorem reply_sent (s : State) l t st p :
    (s.reply l t st p).sent = s.sent ++ [.reply l t st p] := rfl

/-- A state that differs in assemblers, replies and free values alone has its outputs in step. -/
theorem outputsFollow_congr (s t : State) (h : s.outputsFollow) (hq : t.queue = s.queue)
    (hl : t.lanes = s.lanes)
    (hk : ∀ l, (t.link l).attn = (s.link l).attn ∧ (t.link l).flags = (s.link l).flags ∧
      (t.link l).mask = (s.link l).mask) : t.outputsFollow := by
  refine ⟨?_, fun l => ?_⟩
  · rw [hq, h.1]
    exact readyCondition_congr _ _ (by rw [hq]) (by rw [hq]) hl.symm
  · rw [(hk l).1, h.2 l, Link.attention, Link.attention, (hk l).2.1, (hk l).2.2]

/-- An answer leaves the outputs in step. -/
theorem answers_outputsFollow (s : State) (l : LinkId) (tag : Byte) (st : Status) (p : List Byte)
    (h : s.outputsFollow) : (s.answers l tag st p).outputsFollow := by
  refine outputsFollow_congr s _ h rfl rfl fun m => ?_
  have : (s.answers l tag st p).link m = (s.idleAssembler l).link m := rfl
  rw [this, idleAssembler_link]
  split <;> exact ⟨rfl, rfl, rfl⟩

/-- Where the outputs follow, an act that only replies is an answer. -/
theorem taken_reply (s : State) (l : LinkId) (tag : Byte) (st : Status) (p : List Byte)
    (h : s.outputsFollow) : (s.taken l fun u => u.reply l tag st p) = s.answers l tag st p :=
  event_eq_self _ s (answers_outputsFollow s l tag st p h) rfl

/-- Where the outputs follow, a request turned away by R173 changes nothing and draws its reply. -/
theorem request_turnedAway (s : State) (l : LinkId) (tag : Byte) (n : Nat) (act : Act) (p : List Byte)
    (st : Status) (hq : s.quiet = true) (ho : s.outputsFollow) (h : s.turnedAway l tag n = some st) :
    s.request l tag n act p = s.answers l tag st [] := by
  rw [request_of_quiet s l tag n act p hq]
  rw [event_congr (g := fun u => (u.idleAssembler l).reply l tag st [])]
  · exact taken_reply s l tag st [] ho
  · simp only [State.take, turnedAway_idle, h, State.refuse]

end Sys2Proof.Machine
end

