-- ==== Sys2Proof/Laws/Memory.lean ====
section
/-! SUPPORT. Pattern memory: a write keeps the canonical form, and changes the byte it names and no other. -/

namespace Sys2Proof.Machine.Memory

/-- A cell may stand before a memory: its byte is not 0 and its address is below all others. -/
theorem wf_cons (c : Host.Cell) (m : List Host.Cell) :
    wf (c :: m) = (c.2 != 0 && (m.head?.all fun d => decide (c.1 < d.1)) && wf m) := by
  obtain ⟨a, v⟩ := c
  cases m with
  | nil => simp [wf]
  | cons d m => obtain ⟨b, w⟩ := d; simp [wf]

/-- The first address of a memory after a write is the old first one or the one written. -/
theorem head_write (m : List Host.Cell) (a : Nat) (v : Byte) (k : Nat) (hk : k < a)
    (h : m.head?.all fun d => decide (k < d.1)) (hw : wf m = true) :
    (write m a v).head?.all fun d => decide (k < d.1) := by
  cases m with
  | nil => unfold write; split <;> simp [hk]
  | cons c m =>
    obtain ⟨b, w⟩ := c
    simp at h
    rw [wf_cons] at hw
    unfold write
    split
    · simpa using h
    · split
      · split
        · cases m with
          | nil => simp
          | cons d m => simp at hw; simp; omega
        · simp [hk]
      · split
        · simpa using h
        · simp [hk]

/-- A write keeps the canonical form. -/
theorem wf_write (m : List Host.Cell) (a : Nat) (v : Byte) (h : wf m = true) :
    wf (write m a v) = true := by
  induction m with
  | nil => unfold write; split <;> simp_all [wf]
  | cons c m ih =>
    obtain ⟨b, w⟩ := c
    have h' := h
    rw [wf_cons] at h'
    simp only [Bool.and_eq_true] at h'
    unfold write
    split
    · rename_i hba
      rw [wf_cons]
      simp only [Bool.and_eq_true]
      exact ⟨⟨h'.1.1, head_write m a v b hba h'.1.2 h'.2⟩, ih h'.2⟩
    · split
      · rename_i hab
        subst hab
        split
        · exact h'.2
        · rename_i hv
          rw [wf_cons]
          simp only [Bool.and_eq_true]
          exact ⟨⟨by simpa using hv, h'.1.2⟩, h'.2⟩
      · split
        · exact h
        · rename_i h1 h2 hv
          rw [wf_cons]
          simp only [Bool.and_eq_true]
          refine ⟨⟨by simpa using hv, ?_⟩, h⟩
          simp; omega

/-- A run of writes keeps the canonical form. -/
theorem wf_writeRun (m : List Host.Cell) (a : Nat) (bs : List Byte) (h : wf m = true) :
    wf (writeRun m a bs) = true := by
  induction bs generalizing m a with
  | nil => exact h
  | cons b bs ih => exact ih _ _ (wf_write m a b h)

/-- An address below every listed one reads as 0. -/
theorem read_below (m : List Host.Cell) (a : Nat) (h : wf m = true)
    (hl : m.head?.all fun d => decide (a < d.1)) : read m a = 0 := by
  induction m with
  | nil => rfl
  | cons c m ih =>
    obtain ⟨b, w⟩ := c
    rw [wf_cons] at h
    simp only [Bool.and_eq_true] at h
    simp at hl
    unfold read
    rw [if_neg (by omega)]
    apply ih h.2
    cases m with
    | nil => simp
    | cons d m => simp at h; simp; omega

/-- Reading after one write. -/
theorem read_write (m : List Host.Cell) (a b : Nat) (v : Byte) (h : wf m = true) :
    read (write m a v) b = if b = a then v else read m b := by
  induction m with
  | nil =>
    unfold write
    split
    · rename_i hv; simp [read, hv]
    · simp only [read]
      by_cases hb : b = a
      · rw [if_pos hb.symm, if_pos hb]
      · rw [if_neg (Ne.symm hb), if_neg hb]
  | cons c m ih =>
    obtain ⟨k, w⟩ := c
    have h' := h
    rw [wf_cons] at h'
    simp only [Bool.and_eq_true] at h'
    unfold write
    split
    · rename_i hka
      simp only [read]
      by_cases hkb : k = b
      · rw [if_pos hkb, if_pos hkb, if_neg (by omega)]
      · rw [if_neg hkb, if_neg hkb, ih h'.2]
    · split
      · rename_i hka
        subst hka
        split
        · rename_i hv
          by_cases hb : b = k
          · subst hb
            rw [if_pos rfl, hv]
            exact read_below m b h'.2 h'.1.2
          · rw [if_neg hb]; simp only [read]; rw [if_neg (Ne.symm hb)]
        · simp only [read]
          by_cases hb : b = k
          · subst hb; simp
          · rw [if_neg (Ne.symm hb), if_neg hb, if_neg (Ne.symm hb)]
      · split
        · rename_i h1 h2 hv
          by_cases hb : b = a
          · subst hb
            rw [if_pos rfl, hv]
            apply read_below _ _ h
            simp; omega
          · rw [if_neg hb]
        · simp only [read]
          by_cases hb : b = a
          · subst hb; simp
          · rw [if_neg (Ne.symm hb), if_neg hb]

/-- A run of writes leaves every byte outside the run as it was. -/
theorem read_writeRun_outside (m : List Host.Cell) (a b : Nat) (bs : List Byte) (h : wf m = true)
    (hb : b < a ∨ a + bs.length ≤ b) : read (writeRun m a bs) b = read m b := by
  induction bs generalizing m a with
  | nil => rfl
  | cons x bs ih =>
    simp only [writeRun]
    simp only [List.length_cons] at hb
    rw [ih _ _ (wf_write m a x h) (by omega), read_write m a b x h, if_neg (by omega)]

/-- A run of writes puts its bytes at the addresses of the run. -/
theorem read_writeRun_inside (m : List Host.Cell) (a i : Nat) (bs : List Byte) (h : wf m = true)
    (hi : i < bs.length) : read (writeRun m a bs) (a + i) = bs[i] := by
  induction bs generalizing m a i with
  | nil => simp at hi
  | cons x bs ih =>
    simp only [writeRun]
    cases i with
    | zero =>
      rw [read_writeRun_outside _ _ _ _ (wf_write m a x h) (by omega), Nat.add_zero,
        read_write m a a x h, if_pos rfl, List.getElem_cons_zero]
    | succ i =>
      have := ih (write m a x) (a + 1) i (wf_write m a x h) (by simpa using hi)
      rw [show a + (i + 1) = a + 1 + i by omega, this, List.getElem_cons_succ]

/-- A run read back has the bytes that stand there. -/
theorem length_readRun (m : List Host.Cell) (a n : Nat) : (readRun m a n).length = n := by
  induction n generalizing a with
  | zero => rfl
  | succ n ih => simp [readRun, ih]

end Sys2Proof.Machine.Memory
end

