-- ==== Sys2Proof/Laws/Rows.lean ====
section
/-! SUPPORT. Finding a page after a change, when a row is complete, what a pass makes of its record, and what stands
where in packed levels, a run of memory, a run of partners and a bar's slots. -/

namespace Sys2Proof.Machine

/-! ### Pages -/

theorem page_id {s : State} {id : Nat} {p : Page} (h : s.page id = some p) : p.id = id := by
  simpa using List.find?_some h

/-- A change of one page's record that keeps ids is found under that id, and every other record as it was. -/
theorem modPage_page (s : State) (id : Nat) (f : Page → Page) (hf : ∀ p, (f p).id = p.id) (j : Nat) :
    (s.modPage id f).page j = (s.page j).map fun p => if p.id == id then f p else p := by
  simp only [State.page, State.modPage, State.setPages, setQueue_queue]
  rw [List.find?_map]
  congr 1
  refine List.find?_congr fun p _ => ?_
  simp only [Function.comp]
  split <;> simp [hf]

/-! ### Rows -/

/-- A row is complete when no part is ABSENT (R3). -/
theorem isComplete_iff (r : RowRec) :
    r.isComplete = true ↔ ∀ b x, r.parts.get b = some x → x.status ≠ .absent := by
  have h : r.isComplete = barIds.all fun b =>
      match r.parts.get b with
      | some x => x.arrived
      | none => true := rfl
  rw [h, List.all_eq_true]
  constructor
  · intro h b x hx
    have := h b (by cases b <;> decide)
    rw [hx] at this
    intro hs
    simp [RowPart.arrived, hs] at this
  · intro h b _
    cases hb : r.parts.get b with
    | none => rfl
    | some x =>
      have hx := h b x hb
      revert hx
      simp only [RowPart.arrived]
      cases x.status <;> simp

/-- What a bar's pass makes of a row's record (R15). -/
theorem passAt_eq (r : RowRec) (b : BarId) : r.passAt b = r.passedAt b := by
  have h : ∀ x : RowRec, x.settle = { x with
      retired := x.retired || barIds.all fun g =>
        match x.parts.get g with
        | some x => x.passed
        | none => true } := by
    intro x
    have hx : x.allPassed = barIds.all fun g =>
        match x.parts.get g with
        | some x => x.passed
        | none => true := rfl
    rw [← hx]
    unfold RowRec.settle
    cases hx : x.allPassed <;> simp
  unfold RowRec.passAt
  rw [h]
  rfl

/-! ### Levels and memory -/

theorem levelOf_eq_packedLevel (x : Byte) (j : Nat) : levelOf (x.toNat / 4 ^ j) = packedLevel x j := by
  unfold levelOf packedLevel
  generalize x.toNat / 4 ^ j = m
  rcases h : m % 4 with _ | _ | _ | _ | k <;> rfl

theorem unpackByte_getElem? (x : Byte) (j : Nat) (hj : j < 4) : (unpackByte x)[j]? = some (packedLevel x j) := by
  rw [← levelOf_eq_packedLevel]
  rcases j with _ | _ | _ | _ | j <;> first | omega | simp [unpackByte]

theorem readRun_getElem? (m : List Host.Cell) (a n i : Nat) (h : i < n) :
    (Memory.readRun m a n)[i]? = some (Memory.read m (a + i)) := by
  induction n generalizing a i with
  | zero => omega
  | succ n ih =>
    cases i with
    | zero => rfl
    | succ i =>
      simp only [Memory.readRun, List.getElem?_cons_succ]
      rw [ih _ _ (by omega)]
      congr 2
      omega

/-! ### Columns and slots -/

theorem partnersFrom_length (mk : Nat → Nozzle → Partner) (j : Nat) (xs : List Nozzle) :
    (partnersFrom mk j xs).length = xs.length := by
  induction xs generalizing j <;> simp_all [partnersFrom]

theorem partnersFrom_getElem? (mk : Nat → Nozzle → Partner) (j : Nat) (xs : List Nozzle) (n : Nat) :
    (partnersFrom mk j xs)[n]? = xs[n]?.map (mk (j + n)) := by
  induction xs generalizing j n with
  | nil => simp [partnersFrom]
  | cons x xs ih =>
    cases n with
    | zero => simp [partnersFrom]
    | succ n =>
      simp only [partnersFrom, List.getElem?_cons_succ, ih]
      congr 2
      omega

/-- The lane of a slot is one the geometry assigns to the slot (R65). -/
theorem slotLane_assigned {asg : PerLane (Option Assign)} {b : BarId} {k : Nat} {h : LaneId} {c : Nat}
    (hk : slotLane asg b k = some (h, c)) :
    ∃ a, asg.get h = some a ∧ a.bar = b ∧ a.slot = k ∧ a.first = c := by
  unfold slotLane at hk
  obtain ⟨x, _, hx⟩ := List.exists_of_findSome?_eq_some hk
  split at hx
  · rename_i a ha
    split at hx
    · simp only [Option.some.injEq, Prod.mk.injEq] at hx
      obtain ⟨rfl, rfl⟩ := hx
      exact ⟨a, ha, by simp_all⟩
    · cases hx
  · cases hx

/-- A slot that the geometry assigns to some lane has a lane (R65). -/
theorem slotLane_exists {asg : PerLane (Option Assign)} {h : LaneId} {a : Assign} (hk : asg.get h = some a) :
    ∃ g c, slotLane asg a.bar a.slot = some (g, c) := by
  cases hs : slotLane asg a.bar a.slot with
  | some x => exact ⟨x.1, x.2, rfl⟩
  | none =>
    unfold slotLane at hs
    rw [List.findSome?_eq_none_iff] at hs
    have := hs h (by cases h <;> decide)
    simp [hk] at this

end Sys2Proof.Machine
end

