-- ==== Sys2Proof/Laws/Tasks.lean ====
section
/-! SUPPORT. The free order of the bars: what every piece of work keeps, the whole of the work keeps; and the work
done is every piece once, each bar's own pieces in their order. -/

namespace Sys2Proof.Machine

@[simp] theorem draw_position (s : State) : s.draw.position = s.position := rfl
@[simp] theorem draw_queue (s : State) : s.draw.queue = s.queue := rfl
@[simp] theorem draw_ring (s : State) : s.draw.ring = s.ring := rfl
@[simp] theorem draw_bars (s : State) : s.draw.bars = s.bars := rfl
@[simp] theorem draw_lanes (s : State) : s.draw.lanes = s.lanes := rfl
@[simp] theorem draw_lists (s : State) : s.draw.lists = s.lists := rfl
@[simp] theorem draw_library (s : State) : s.draw.library = s.library := rfl
@[simp] theorem draw_links (s : State) : s.draw.links = s.links := rfl
@[simp] theorem draw_sent (s : State) : s.draw.sent = s.sent := rfl
@[simp] theorem draw_pending (s : State) : s.draw.pending = s.pending := rfl

/-- What a draw and every piece of work keep, the work keeps. -/
theorem runTasks_keeps {τ : Type} (P : State → Prop) (run : τ → State → State)
    (hd : ∀ s, P s → P s.draw) (hr : ∀ t s, P s → P (run t s)) (n : Nat) (qs : List (List τ)) (s : State)
    (h : P s) : P (runTasks run n qs s) := by
  induction n generalizing qs s with
  | zero => exact h
  | succ n ih =>
    simp only [runTasks]
    split
    · exact ih _ _ (hr _ _ (hd _ h))
    · exact h

/-- A function of the state that a draw and every piece of work leave alone, the work leaves alone. -/
theorem runTasks_frame {τ α : Type} (proj : State → α) (run : τ → State → State)
    (hd : ∀ s : State, proj s.draw = proj s) (hr : ∀ t s, proj (run t s) = proj s) (n : Nat)
    (qs : List (List τ)) (s : State) : proj (runTasks run n qs s) = proj s :=
  runTasks_keeps (fun u => proj u = proj s) run (fun u h => (hd u).trans h)
    (fun t u h => (hr t u).trans h) n qs s rfl

/-- The filter of empty queues loses no task. -/
theorem flatten_filter_nonempty {τ : Type} (qs : List (List τ)) :
    (qs.filter (! ·.isEmpty)).flatten = qs.flatten := by
  induction qs with
  | nil => rfl
  | cons q qs ih => cases q <;> simp [ih]

/-- Taking the first task of a queue takes it from all the tasks. -/
theorem flatten_set_perm {τ : Type} (qs : List (List τ)) (i : Nat) (t : τ) (rest : List τ)
    (h : qs[i]? = some (t :: rest)) : qs.flatten.Perm (t :: (qs.set i rest).flatten) := by
  induction qs generalizing i with
  | nil => simp at h
  | cons q qs ih =>
    cases i with
    | zero => simp at h; subst h; simp
    | succ i =>
      have := ih i (by simpa using h)
      simp only [List.set_cons_succ, List.flatten_cons]
      exact (this.append_left q).trans List.perm_middle

/-- The work done is every task once, in some order that keeps each queue's own. -/
theorem runTasks_order {τ : Type} (run : τ → State → State) (n : Nat) (qs : List (List τ)) (s : State)
    (hn : qs.flatten.length ≤ n) :
    ∃ order : List τ, order.Perm qs.flatten ∧ (∀ q ∈ qs, q.Sublist order) ∧
      runTasks run n qs s = order.foldl (fun u t => run t u.draw) s := by
  induction n generalizing qs s with
  | zero =>
    have he : qs.flatten = [] := List.length_eq_zero_iff.1 (by omega)
    refine ⟨[], by rw [he], fun q hq => ?_, rfl⟩
    have : q = [] := by
      by_contra hne
      have := List.flatten_eq_nil_iff.1 he q hq
      exact hne this
    simp [this]
  | succ n ih =>
    simp only [runTasks]
    have hf := flatten_filter_nonempty qs
    generalize hg : qs.filter (! ·.isEmpty) = fs at hf
    split
    · rename_i t rest hi
      have hp := flatten_set_perm fs _ t rest hi
      have hlen : (fs.set (Config.pick s.fresh % fs.length) rest).flatten.length ≤ n := by
        have := hp.length_eq
        simp only [List.length_cons, hf] at this
        omega
      obtain ⟨order, h1, h2, h3⟩ := ih _ (run t s.draw) hlen
      refine ⟨t :: order, ?_, ?_, by rw [h3]; rfl⟩
      · rw [← hf]; exact (h1.cons t).trans hp.symm
      · intro q hq
        by_cases hne : q = []
        · simp [hne]
        have hmem : q ∈ fs := by
          rw [← hg]; exact List.mem_filter.2 ⟨hq, by cases q <;> simp_all⟩
        obtain ⟨k, hk⟩ := List.mem_iff_getElem?.1 hmem
        by_cases hki : k = Config.pick s.fresh % fs.length
        · rw [hki, hi] at hk
          cases hk
          refine List.Sublist.cons_cons t (h2 rest ?_)
          have hlt := (List.getElem?_eq_some_iff.1 hi).1
          exact List.mem_iff_getElem?.2 ⟨_, List.getElem?_set_self hlt⟩
        · refine List.Sublist.cons t (h2 q (List.mem_iff_getElem?.2 ⟨k, ?_⟩))
          rw [List.getElem?_set_ne (Ne.symm hki)]
          exact hk
    · rename_i hno
      have he : fs = [] := by
        by_contra hne
        have hpos : 0 < fs.length := List.length_pos_iff.2 hne
        have hlt := Nat.mod_lt (Config.pick s.fresh) hpos
        obtain ⟨q, hq⟩ : ∃ q, fs[Config.pick s.fresh % fs.length]? = some q :=
          ⟨_, List.getElem?_eq_getElem hlt⟩
        have hmem : q ∈ qs.filter (! ·.isEmpty) := by
          rw [hg]; exact List.mem_iff_getElem?.2 ⟨_, hq⟩
        have hnn := (List.mem_filter.1 hmem).2
        cases q with
        | nil => simp at hnn
        | cons t rest => exact hno t rest hq
      rw [he] at hf
      have hq0 : qs.flatten = [] := by rw [← hf]; rfl
      refine ⟨[], by rw [hq0], fun q hq => ?_, rfl⟩
      have := List.flatten_eq_nil_iff.1 hq0 q hq
      simp [this]

end Sys2Proof.Machine
end

