-- ==== Sys2Proof/WellFormed.lean ====
section
/-! DEFINITION. Which commands the world can put to the block: a payload that a packet can carry, an
undefined number for UNKNOWN, at most eight nozzle reports. -/

namespace Sys2Proof

/-- The request numbers R177 leaves undefined: 0, 7, 13, 14, 15 and 40 to 255. -/
def undefinedNumber (n : Byte) : Bool :=
  n.toNat == 0 || n.toNat == 7 || (13 ≤ n.toNat && n.toNat ≤ 15) || 40 ≤ n.toNat

/-- A payload a packet can carry (R171, R172). -/
def payloadFits (p : List Byte) : Bool := p.length ≤ Config.maxPayload

/-- The check on a command. -/
def Instr.wellFormed : Instr → Bool
  | .pgopen _ _ p | .rowput _ _ p | .rowskip _ _ p | .pgcancel _ _ p | .pgretire _ _ p
  | .ringmark _ _ p | .lnsetup _ _ p | .lnzero _ _ p | .trig _ _ p | .suppr _ _ p
  | .pgabort _ _ p | .geoset _ _ p | .barset _ _ p | .hdon _ _ p | .hdoff _ _ p
  | .hdpark _ _ p | .hdrein _ _ p | .lanescan _ _ p | .drvset _ _ p | .nzedit _ _ p
  | .nzcommit _ _ p | .nzdrop _ _ p | .nzread _ _ p | .ptnew _ _ p | .ptrow _ _ p
  | .ptdel _ _ p | .ptlist _ _ p | .chkprint _ _ p | .prreset _ _ p | .statrd _ _ p
  | .pgstat _ _ p | .evrd _ _ p | .evclr _ _ p | .evmask _ _ p | .wdraw _ _ p => payloadFits p
  | .unknown _ _ n p => undefinedNumber n && payloadFits p
  | .loadReply _ _ _ _ rs => rs.length ≤ 8
  | .badCheck _ | .packetLengthDiscard _ | .packetInactivityTimeout _
  | .encoderEdge _ _ | .lineTick | .automaticTrigger | .pdetRisingEdge | .powerOn _ _
  | .warmTimerExpiry _ | .settleTimerExpiry _ | .retryTimerExpiry _ | .slewTimerExpiry _
  | .identifyAnswer _ _ _ | .identifyTimeout _ | .loadReplyTimeout _
  | .fireComplete _ _ | .loadSend _ | .rowStoreGrant | .rowStoreReadDone
  | .rowputWriteComplete | .packetByte _ _ => true

end Sys2Proof
end

