-- ==== Sys2Proof/Tests/Slice0.lean ====
section
/-! SUPPORT. Tests: ill-formed commands that WellFormed turns away, small steps on small states, and states that
meet the hypotheses of the statements, each clause at a value where it begins or ends. -/

namespace Sys2Proof.Tests

set_option Elab.async false

open Sys2Proof.Machine

/-! ### WellFormed -/

theorem test_longest_payload_is_well_formed :
    (Instr.pgopen .image 1 (List.replicate 1040 0)).wellFormed = true := by decide +kernel

theorem test_longer_payload_is_ill_formed :
    (Instr.pgopen .image 1 (List.replicate 1041 0)).wellFormed = false := by decide +kernel

theorem test_unknown_takes_undefined_numbers_only :
    [0, 1, 6, 7, 8, 12, 13, 15, 16, 39, 40, 255].map (fun n => (Instr.unknown .image 1 n []).wellFormed) =
      [true, false, false, true, false, false, true, true, false, false, true, true] := by decide +kernel

theorem test_unknown_with_a_longer_payload_is_ill_formed :
    (Instr.unknown .image 1 0 (List.replicate 1041 0)).wellFormed = false := by decide +kernel

theorem test_nine_reports_are_ill_formed :
    [8, 9].map (fun n => (Instr.loadReply .hl0 1 .ok 30 (List.replicate n ⟨0, .short⟩)).wellFormed) =
      [true, false] := by decide +kernel

/-! ### Small states -/

/-- Every lane OFF, no probe and no exchange, nothing sent, no nozzle entries. -/
def bare : State :=
  (State.reset.setLanes (.all { Lane.powerOn with head := .off, probe := none, exchange := none, nozzles := [] })).setSent []

/-- The bare state with a whole nozzle table. -/
def whole : State := bare.setLanes (bare.lanes.map fun x => { x with nozzles := Lane.powerOn.nozzles })

/-- Bar B0 enabled, with lane HL0 as its one head. -/
def oneHead (f : Lane → Lane) : State :=
  (bare.modBar .b0 fun x => { x with enabled := true }).modLane .hl0 fun x =>
    f { x with assign := some ⟨.b0, 0, 0⟩ }

/-- The one head in a state. -/
def headIn (x : HeadState) : State := oneHead fun ln => { ln with head := x }

/-- A page of B0 with three rows. -/
def page (id : Nat) (st : PageState) : Page :=
  { newPage id 3 ⟨true, false, false, false⟩ none st with
    trigger := if st = .declared ∨ st = .armed then none else some 0 }

/-- A row of a page of B0. -/
def rowOf (id row : Nat) (st : PartStatus) : RowRec := ⟨id, row, ⟨some ⟨st, false⟩, none, none, none⟩, false, none⟩

/-- A state with pages and rows. -/
def holding (s : State) (ps : List Page) (rs : List RowRec) : State := (s.setPages ps).setRows rs

/-- The name 'A' of a READY CHECK pattern of two rows, 'S' of a READY SPIT pattern, 'N' of one not READY. -/
def patterns (s : State) : State :=
  s.setLibrary { s.library with directory :=
    [⟨[0x41], .check, 2, 0, true, [0, 1]⟩, ⟨[0x53], .spit, 1, 2, true, [0]⟩, ⟨[0x4E], .spit, 1, 5, false, []⟩] }

/-- The next state of an outcome. -/
def nextOf (o : Answer) : Option State :=
  match o with
  | .next t => some t
  | _ => none

/-- The state a command answers. -/
def after (s : State) (c : Instr) : State := (nextOf (exec c s)).getD s

/-- Status and payload of the last reply after a command. -/
def replyTo (s : State) (c : Instr) : Option (Status × List Byte) :=
  match (after s c).sent.getLast? with
  | some (.reply _ _ st p) => some (st, p)
  | _ => none

/-- The statuses a request answers for some payloads. -/
def statuses (s : State) (c : List Byte → Instr) (ps : List (List Byte)) : List (Option Status) :=
  ps.map fun p => (replyTo s (c p)).map (·.1)

/-! ### The common hypotheses: a link takes a request, the outputs are in step, the invariants -/

theorem witness_reset_listens : State.reset.listens .image 1 := by
  refine ⟨⟨by decide +kernel, by decide, by decide +kernel⟩, by decide +kernel, ?_⟩
  intro l; cases l <;> decide +kernel

theorem witness_whole_table_listens : whole.listens .service 1 ∧ whole.tableWhole := by
  refine ⟨⟨⟨by decide +kernel, by decide, by decide +kernel⟩, by decide +kernel, ?_⟩, ?_⟩
  · intro l; cases l <;> decide +kernel
  · intro h; cases h <;> decide +kernel

theorem witness_active_head_and_pages_listen :
    (holding (headIn .active) [page 5 .printing, page 6 .armed, page 7 .declared] []).listens .motion 1 := by
  refine ⟨⟨by decide +kernel, by decide, by decide +kernel⟩, by decide +kernel, ?_⟩
  intro l; cases l <;> decide +kernel

theorem witness_step_takes_and_idles :
    nextOf (step (bare.setPending [.lineTick])) = some bare ∧ bare.pending = [] ∧ bare.quiet = true ∧
      nextOf (step bare) = some bare := by decide +kernel

theorem witness_ring_settled :
    (holding bare [] [rowOf 5 0 .blank]).ring.settled := by
  refine ⟨by decide +kernel, ?_⟩
  intro x hx
  simp [holding, State.setRows, State.setRing, rowOf] at hx
  simp [← hx]

theorem witness_position_agrees :
    { State.reset.position with highWater := 3, depth := 1, encoder := 2 }.agrees := by
  refine ⟨by decide +kernel, by decide +kernel, by decide +kernel, by decide +kernel⟩

theorem witness_queue_ordered :
    (holding bare [page 5 .printing, page 6 .armed, page 7 .declared] []).queue.ordered :=
  ⟨by decide +kernel, by decide +kernel, [page 5 .printing], [page 6 .armed, page 7 .declared], rfl,
    by decide +kernel, by decide +kernel, by decide +kernel⟩

theorem witness_library_ordered : (patterns bare).library.ordered :=
  ⟨by decide +kernel, by decide +kernel, by decide +kernel, by decide +kernel⟩

theorem witness_pattern_memory :
    Memory.wf (Memory.write [] 256 0x1B) = true ∧ Memory.read (Memory.write [] 256 0x1B) 256 = 0x1B := by
  decide +kernel

/-! ### Requests of the Image link: what each check answers, in order, at a value where it begins -/

/-- Pages 5 (ARMED, two rows delivered) and 6 (ABORTED), one row of page 5 whose part is ABSENT, patterns. -/
def intake : State :=
  patterns (holding (headIn .off) [{ page 5 .armed with delivered := 1 }, page 6 .aborted] [rowOf 5 0 .absent])

theorem test_pgopen_checks :
    statuses intake (.pgopen .image 1)
      [[0, 7, 0, 1], [0, 7, 0, 1, 1, 65, 65, 65, 65, 65, 65, 65, 65, 65], [0, 0, 0, 1, 1], [0, 7, 0, 0, 1],
       [0, 7, 0, 1, 0], [0, 7, 0, 1, 16], [0, 7, 0, 1, 1, 0x40], [0, 7, 0, 1, 2], [0, 5, 0, 1, 1],
       [0, 7, 0, 1, 1, 0x4E], [0, 7, 0, 1, 1, 0x41], [255, 255, 255, 255, 1]] =
      [some .badLength, some .badLength, some .badField, some .badField, some .badField, some .badField,
       some .badField, some .badField, some .exists_, some .notFound, some .ok, some .ok] := by decide +kernel

theorem test_pgopen_declares_behind_an_armed_page :
    ((after intake (.pgopen .image 1 [0, 7, 0, 2, 1])).page 7).map (fun p => (p.state, p.rowCount, p.progress)) =
      some (.declared, 2, ⟨some 0, none, none, none⟩) ∧
    replyTo (holding (headIn .off) ((List.range 8).map fun i => page (i + 1) .done) []) (.pgopen .image 1 [0, 9, 0, 1, 1]) =
      some (.full, []) := by decide +kernel

/-- A ROWPUT's payload for bar B0. -/
def part (id row bar n : Nat) : List Byte :=
  be16 id ++ be16 row ++ be8 bar :: List.replicate n 0x1B

theorem test_rowput_checks :
    statuses intake (.rowput .image 1)
      [[0, 5, 0, 0], part 5 0 4 256, part 9 0 0 256, part 5 0 1 256, part 5 0 0 255, part 5 3 0 256, part 6 0 0 256,
       part 5 2 0 256] =
      [some .badLength, some .badField, some .notFound, some .badField, some .badLength, some .badField,
       some .wrongState, some .sequence] ∧
    replyTo (holding intake intake.queue.pages (List.replicate 2048 (rowOf 5 0 .absent))) (.rowput .image 1 (part 5 1 0 256)) =
      some (.full, []) := by decide +kernel

/-- A ROWPUT in progress: a new row, then its write with the row store. -/
def writing (row : Nat) : State :=
  after (after intake (.rowput .image 1 (part 5 row 0 256))) .rowStoreGrant

theorem test_rowput_creates_or_fills :
    ((writing 1).row 5 1).map (·.writing) = some (some .b0) ∧ (writing 1).ring.rows.length = 2 ∧
      ((writing 0).row 5 0).map (·.writing) = some (some .b0) ∧ (writing 0).ring.rows.length = 1 ∧
      (writing 0).ring.store = .write := by decide +kernel

theorem test_rowput_write_complete :
    (after (writing 0) .rowputWriteComplete).ring.store = .free ∧
      replyTo (writing 0) .rowputWriteComplete = some (.ok, be16 2047) ∧
      ((after (writing 0) .rowputWriteComplete).page 5).map (·.complete) = some 1 ∧
      (writing 0).quiet = true ∧ after intake .rowputWriteComplete = intake := by decide +kernel

theorem test_rowskip_checks :
    statuses intake (.rowskip .image 1)
      [[0, 5, 0, 1, 0], [0, 5, 0, 1, 0, 0], [0, 5, 0, 1, 1, 1], [0, 9, 0, 1, 0, 1], [0, 5, 0, 1, 0, 3], [0, 6, 0, 0, 0, 1],
       [0, 5, 0, 2, 0, 1], [0, 5, 0, 1, 0, 2]] =
      [some .badLength, some .badField, some .badField, some .notFound, some .badField, some .wrongState,
       some .sequence, some .ok] ∧
    replyTo (holding intake intake.queue.pages (List.replicate 2047 (rowOf 5 0 .absent))) (.rowskip .image 1 [0, 5, 0, 1, 0, 2]) =
      some (.full, []) := by decide +kernel

theorem test_rowskip_creates_blank_rows :
    (after intake (.rowskip .image 1 [0, 5, 0, 1, 0, 2])).ring.rows.length = 3 ∧
      ((after intake (.rowskip .image 1 [0, 5, 0, 1, 0, 2])).page 5).map (fun p => (p.delivered, p.complete)) =
        some (3, 2) := by decide +kernel

/-- One page in every state. -/
def everyState : State :=
  holding (headIn .off) [page 1 .done, page 2 .aborted, page 3 .printing, page 4 .armed, page 5 .declared] [rowOf 5 0 .blank]

theorem test_pgcancel_checks :
    statuses everyState (.pgcancel .image 1) [[0], [0, 9], [0, 1], [0, 2], [0, 3], [0, 4], [0, 5]] =
      [some .badLength, some .notFound, some .wrongState, some .wrongState, some .ok, some .ok, some .ok] := by
  decide +kernel

theorem test_pgcancel_arms_and_releases :
    ((after everyState (.pgcancel .image 1 [0, 4])).page 5).map (·.state) = some .armed ∧
      (after everyState (.pgcancel .image 1 [0, 5])).ring.rows = [] ∧
      ((after everyState (.pgcancel .image 1 [0, 3])).page 3).map (fun p => (p.state, p.cause)) =
        some (.aborted, some .cancelled) := by decide +kernel

theorem test_pgretire_checks :
    statuses everyState (.pgretire .image 1) [[0], [0, 9], [0, 3], [0, 4], [0, 5], [0, 1], [0, 2]] =
      [some .badLength, some .notFound, some .wrongState, some .wrongState, some .wrongState, some .ok, some .ok] ∧
    (everyState.queue.pages.map (·.id)).Nodup := by decide +kernel

theorem test_ringmark_checks :
    statuses intake (.ringmark .image 1) [[1], [0, 0], [8, 1], [0, 1], [8, 0]] =
      [some .badLength, some .badField, some .badField, some .ok, some .ok] ∧
    (after intake (.ringmark .image 1 [8, 0])).ring.roomMark = 2048 := by decide +kernel

/-! ### Requests of the Motion link -/

theorem test_lnsetup_checks :
    statuses everyState (.lnsetup .motion 1)
      [[1, 0, 0, 0, 0, 0, 0, 0, 0], [0, 255, 0, 0, 0, 0, 0, 0, 0, 0], [1, 0, 2, 0, 0, 0, 0, 0, 0, 0],
       [1, 0, 0, 3, 0, 0, 0, 0, 0, 0], [1, 0, 0, 0, 0, 0, 0, 0, 8, 1], [1, 1, 0, 0, 0, 0, 0, 0, 0, 0],
       [1, 0, 1, 0, 0, 0, 0, 0, 0, 0], [1, 0, 0, 2, 0, 0, 0, 0, 8, 0]] =
      [some .badLength, some .badField, some .badField, some .badField, some .badField, some .wrongState,
       some .wrongState, some .ok] := by decide +kernel

theorem test_lnsetup_sets_every_field :
    (after { bare with position := { bare.position with accumulator := 9 } }
        (.lnsetup .motion 1 [1, 1, 1, 1, 0, 2, 0, 3, 0, 4])).position =
      { bare.position with
        pitch := 257, accumulator := 0, swapped := true, source := .link, holdoff := 2, autoPitch := 3 } := by
  decide +kernel

theorem test_lnzero_checks :
    statuses everyState (.lnzero .motion 1) [[0], []] = [some .badLength, some .wrongState] ∧
      statuses bare (.lnzero .motion 1) [[]] = [some .ok] := by decide +kernel

/-- A position under trigger source `src` at line 10, last trigger at line 7 with 3 rows; B0 at offset 1, so that
no bar begins row 0 at a trigger. -/
def atLine (src : TriggerSource) (holdoff : Nat) (s : State) : State :=
  (s.modBar .b0 fun x => { x with offset := 1 }).setPosition { s.position with
    source := src, line := 10, lastTrigger := some 7, lastRows := 3, holdoff := holdoff, autoPitch := 3 }

theorem test_trig_outcomes :
    statuses (atLine .pdet 0 everyState) (.trig .motion 1) [[0], []] = [some .badLength, some .wrongState] ∧
      replyTo (atLine .link 0 everyState) (.trig .motion 1 []) = some (.ok, [0, 0, 0, 0, 10]) ∧
      replyTo (atLine .link 4 everyState) (.trig .motion 1 []) = some (.ok, [1, 0, 0, 0, 10]) ∧
      replyTo (atLine .auto 4 bare) (.trig .motion 1 []) = some (.ok, [2, 0, 0, 0, 10]) := by decide +kernel

theorem test_trig_starts_the_armed_page :
    (after (atLine .link 0 everyState) (.trig .motion 1 [])).queue.pages.map (·.state) =
        [.done, .aborted, .printing, .printing, .armed] ∧
      ((after (atLine .link 0 everyState) (.trig .motion 1 [])).page 4).map (·.trigger) = some (some 10) := by
  decide +kernel

theorem test_pdet_rising_edge :
    (after (atLine .pdet 0 everyState) .pdetRisingEdge).position.taken = 1 ∧
      (after (atLine .pdet 4 everyState) .pdetRisingEdge).position.early = 1 ∧
      (after (atLine .pdet 4 bare) .pdetRisingEdge).position.empty = 1 ∧
      after (atLine .link 4 everyState) .pdetRisingEdge = atLine .link 4 everyState := by decide +kernel

/-- An automatic trigger raised. -/
def raised (s : State) : State := s.setPosition { s.position with autoRaised := true }

theorem test_automatic_trigger :
    (after (raised (atLine .auto 0 everyState)) .automaticTrigger).position.taken = 1 ∧
      (after (raised (atLine .auto 4 everyState)) .automaticTrigger).position.early = 1 ∧
      (let p := (after (raised (atLine .auto 4 bare)) .automaticTrigger).position
      (p.empty, p.lastTrigger, p.lastRows) = (1, some 10, 0)) ∧
      after bare .automaticTrigger = bare := by decide +kernel

theorem test_suppr_checks :
    statuses bare (.suppr .motion 1) [[], [2], [0], [1]] =
      [some .badLength, some .badField, some .ok, some .ok] ∧
    (after bare (.suppr .motion 1 [1])).queue.suppress = true := by decide +kernel

theorem test_pgabort_checks :
    statuses everyState (.pgabort .motion 1) [[0], [0, 9], [0, 4], [0, 3], [0, 0]] =
      [some .badLength, some .notFound, some .wrongState, some .ok, some .ok] ∧
    statuses (holding bare [page 4 .armed] []) (.pgabort .motion 1) [[0, 0]] = [some .wrongState] ∧
    ((after everyState (.pgabort .motion 1 [0, 0])).page 3).map (fun p => (p.state, p.cause)) =
      some (.aborted, some .motionAbort) := by decide +kernel

/-! ### Requests of the Service link -/

/-- A GEOSET payload: lane HL0 as given, lane HL1 as given, the others unassigned; bars as given. -/
def geometry (l0 l1 : List Byte) (bars : List Byte) : List Byte :=
  l0 ++ l1 ++ (List.replicate 6 [0xFF, 0, 0, 0]).flatten ++ bars ++ List.replicate (12 - bars.length) 0

theorem test_geoset_checks :
    statuses bare (.geoset .service 1)
      [[0], geometry [4, 0, 0, 0] [0xFF, 0, 0, 0] [], geometry [0, 4, 0, 0] [0xFF, 0, 0, 0] [],
       geometry [0, 0, 12, 1] [0xFF, 0, 0, 0] [], geometry [0, 0, 0, 0] [0xFF, 0, 0, 0] [2, 0, 0],
       geometry [0, 0, 0, 0] [0xFF, 0, 0, 0] [1, 32, 0], geometry [0, 0, 0, 0] [0, 0, 3, 192] [],
       geometry [0, 1, 0, 0] [0xFF, 0, 0, 0] [], geometry [0, 0, 0, 0] [0, 1, 3, 191] [],
       geometry [0, 0, 0, 0] [0, 1, 4, 1] [], geometry [0xFF, 0, 0, 0] [0xFF, 0, 0, 0] [1, 0, 0],
       geometry [0, 0, 0, 0] [0, 1, 3, 192] [1, 31, 255], geometry [0, 1, 12, 0] [0, 0, 8, 0] [1, 0, 0]] =
      [some .badLength, some .badField, some .badField, some .badField, some .badField, some .badField, some .badField,
       some .badField, some .badField, some .badField, some .badField, some .ok, some .ok] ∧
    statuses (headIn .warming) (.geoset .service 1) [geometry [0xFF, 0, 0, 0] [0xFF, 0, 0, 0] []] =
      [some .wrongState] := by decide +kernel

theorem test_geoset_replaces_the_geometry :
    let t := after bare (.geoset .service 1 (geometry [0, 0, 0, 0] [0, 1, 3, 192] [1, 31, 255]))
    (t.lane .hl1).assign = some ⟨.b0, 1, 960⟩ ∧ (t.bar .b0).enabled = true ∧ (t.bar .b0).offset = 8191 ∧
      t.barWidth .b0 = 1984 := by decide +kernel

theorem test_barset_checks :
    statuses bare (.barset .service 1)
      [[0], [4, 0, 0, 0, 0, 1], [0, 2, 0, 0, 0, 1], [0, 0, 2, 0, 0, 1], [0, 0, 0, 4, 0, 1], [0, 0, 0, 0, 0, 0],
       [0, 0, 0, 0, 16, 0], [3, 1, 1, 3, 15, 255]] =
      [some .badLength, some .badField, some .badField, some .badField, some .badField, some .badField,
       some .badField, some .ok] ∧
    ((after bare (.barset .service 1 [3, 1, 1, 3, 15, 255])).bar .b3).asSet = ⟨.halt, .interleave, .spitAny, 4095⟩ := by
  decide +kernel

/-- Every head state. -/
def headStates : List HeadState :=
  [.absent, .off, .warming, .active, .settling .off, .settling .parked, .parked, .recovery, .failed]

/-- The statuses one request answers by the head's state. -/
def byHead (c : Instr) : List (Option Status) := headStates.map fun x => (replyTo (headIn x) c).map (·.1)

theorem test_hdon_by_the_head :
    statuses (headIn .off) (.hdon .service 1) [[0], [8, 0, 0], [0, 2, 0], [0, 0, 5], [1, 0, 0], [0, 0, 4]] =
      [some .badLength, some .badField, some .badField, some .badField, some .wrongState, some .ok] ∧
    byHead (.hdon .service 1 [0, 0, 0]) =
      [some .wrongState, some .ok, some .ok, some .ok, some .wrongState, some .wrongState, some .ok,
       some .wrongState, some .wrongState] ∧
    byHead (.hdon .service 1 [0, 1, 0]) =
      [some .wrongState, none, none, some .ok, some .wrongState, some .wrongState, none, some .wrongState,
       some .wrongState] := by decide +kernel

theorem test_hdon_of_a_hot_head_faults :
    let t := after (oneHead fun ln => { ln with temperature := 70 }) (.hdon .service 1 [0, 1, 0])
    (t.lane .hl0).head = .recovery ∧ (t.lane .hl0).retries = 1 ∧ (t.link .service).flags = 1 ∧
      (t.link .service).busy = none ∧ t.sent = [.reply .service 1 .failed []] := by decide +kernel

theorem test_hdoff_by_the_head :
    statuses (headIn .off) (.hdoff .service 1) [[], [8]] = [some .badLength, some .badField] ∧
    byHead (.hdoff .service 1 [0]) =
      [some .wrongState, some .ok, some .ok, some .ok, some .ok, some .ok, some .ok, some .wrongState,
       some .wrongState] ∧
    headStates.map (fun x => ((after (headIn x) (.hdoff .service 1 [0])).lane .hl0).head) =
      [.absent, .off, .off, .settling .off, .settling .off, .settling .off, .off, .recovery, .failed] := by
  decide +kernel

theorem test_hdpark_by_the_head :
    statuses (headIn .active) (.hdpark .service 1) [[], [8, 0, 0], [0, 2, 0], [0, 0, 2]] =
      [some .badLength, some .badField, some .badField, some .badField] ∧
    byHead (.hdpark .service 1 [0, 0, 1]) =
      [some .wrongState, some .wrongState, some .wrongState, some .ok, some .wrongState, some .ok, some .ok,
       some .wrongState, some .wrongState] ∧
    ((after (headIn .active) (.hdpark .service 1 [0, 1, 1])).lane .hl0).park = some true := by decide +kernel

theorem test_hdrein_by_the_head :
    statuses (headIn .failed) (.hdrein .service 1) [[], [8], [0]] = [some .badLength, some .badField, some .ok] ∧
    byHead (.hdrein .service 1 [0]) =
      [some .wrongState, some .wrongState, some .wrongState, some .wrongState, some .wrongState, some .wrongState,
       some .wrongState, some .wrongState, some .ok] := by decide +kernel

theorem test_lanescan_checks :
    statuses (headIn .active) (.lanescan .service 1) [[], [0], [1], [2]] =
      [some .badLength, some .badField, some .wrongState, none] ∧
    (let t := after bare (.lanescan .service 1 [0x81])
    (t.lane .hl7).probe = some (.plain true) ∧ (t.lane .hl1).probe = none ∧
      t.sent = [.head .hl0 .identify, .head .hl7 .identify]) := by decide +kernel

theorem test_drvset_checks :
    statuses (headIn .active) (.drvset .service 1)
      [[0], [8, 0, 0, 0, 40], [0, 0, 7, 0, 40], [0, 0, 0, 5, 40], [0, 0, 0, 0, 39], [0, 0, 0, 0, 101], [0, 255, 6, 4, 100]] =
      [some .badLength, some .badField, some .badField, some .badField, some .badField, some .badField, some .ok] ∧
    replyTo (headIn .active) (.drvset .service 1 [0, 200, 0, 0, 40]) = some (.ok, [200, 200]) ∧
    replyTo (headIn .active) (.drvset .service 1 [0, 200, 6, 0, 40]) = some (.ok, [0, 200]) := by decide +kernel

theorem test_drvset_finds_a_ramp_or_a_hot_head :
    (let ramp := oneHead fun ln =>
      { ln with head := .active, drive := 9, target := 50, step := 4, interval := .ms2, slewTimer := some .ms2 }
    replyTo ramp (.drvset .service 1 [0, 50, 0, 0, 70]) = some (.ok, [9, 9]) ∧
      ((after ramp (.drvset .service 1 [0, 9, 3, 2, 70])).lane .hl0).slewTimer = none ∧
      ((after ramp (.drvset .service 1 [0, 60, 3, 3, 70])).lane .hl0).slewTimer = some .ms4) ∧
    (let hot := oneHead fun ln => { ln with head := .active, drive := 9, target := 9, temperature := 60 }
    replyTo hot (.drvset .service 1 [0, 20, 0, 0, 60]) = some (.ok, [0, 20]) ∧
      ((after hot (.drvset .service 1 [0, 20, 0, 0, 60])).lane .hl0).head = .recovery) := by decide +kernel

/-- One edit entry. -/
def entry (lane first count presence st sub trim : Nat) : List Byte :=
  [be8 lane] ++ be16 first ++ be16 count ++ [be8 presence, be8 st, be8 sub, be8 trim]

/-- An edit of nozzles 0 to 1 of HL0: state FAILED, substitute +1, trim -1. -/
def someEdit : Edit := ⟨.hl0, 0, 2, some .failed, some (.offset 1), some (-1), [], 1⟩

theorem test_nzedit_checks :
    statuses bare (.nzedit .service 1)
      [[], [0], [65], [1], 1 :: entry 8 0 1 1 0 0 0, 1 :: entry 0 1024 1 1 0 0 0, 1 :: entry 0 0 0 1 0 0 0,
       1 :: entry 0 1023 2 1 0 0 0, 1 :: entry 0 0 1 0 0 0 0, 1 :: entry 0 0 1 8 0 0 0, 1 :: entry 0 0 1 1 4 0 0,
       1 :: entry 0 5 1 2 0 4 0, 1 :: entry 0 0 1 2 0 255 0, 1 :: entry 0 1023 1 2 0 1 0, 1 :: entry 0 0 1 4 0 0 8,
       1 :: entry 0 0 1 4 0 0 248, 1 :: entry 7 0 1024 5 3 9 249, 1 :: entry 0 0 2 7 3 1 255] =
      [some .badLength, some .badField, some .badField, some .badLength, some .badField, some .badField, some .badField,
       some .badField, some .badField, some .badField, some .badField, some .badField, some .badField, some .badField,
       some .badField, some .badField, some .ok, some .ok] ∧
    replyTo (bare.setLists { bare.lists with pending := List.replicate 256 someEdit })
      (.nzedit .service 1 (1 :: entry 0 0 1 1 0 0 0)) = some (.full, []) := by decide +kernel

theorem test_nzedit_stages_its_edit :
    (after bare (.nzedit .service 1 (1 :: entry 0 0 2 7 3 1 255))).lists.pending = [someEdit] ∧
      replyTo bare (.nzedit .service 1 (1 :: entry 0 0 2 7 3 1 255)) = some (.ok, [0, 1, 0, 0, 0, 1]) := by
  decide +kernel

/-- Two nozzles of HL0 in the table, one edit pending, the pages of `everyState`. -/
def staged : State :=
  (everyState.modLane .hl0 fun x => { x with nozzles := [⟨.good, none, 0, 5, 6⟩, ⟨.weak, none, -1, 5, 6⟩] }).setLists
    { everyState.lists with pending := [someEdit] }

theorem test_nzcommit_checks :
    statuses staged (.nzcommit .service 1)
      [[0], [2, 0, 0, 0, 0, 0], [0, 2, 0, 0, 0, 0], [1, 0, 0, 9, 0, 0], [1, 0, 0, 1, 0, 0], [1, 0, 0, 2, 0, 0],
       [1, 0, 0, 4, 0, 3], [1, 0, 0, 3, 0, 0], [1, 0, 0, 3, 0, 1], [1, 1, 0, 4, 0, 2], [0, 0, 0, 0, 0, 0]] =
      [some .badLength, some .badField, some .badField, some .notFound, some .wrongState, some .wrongState,
       some .badField, some .wrongState, some .ok, none, some .ok] ∧
    replyTo bare (.nzcommit .service 1 [1, 0, 0, 9, 0, 0]) = some (.ok, [0, 0]) ∧
    replyTo (after staged (.nzcommit .service 1 [1, 0, 0, 4, 0, 2])) (.nzcommit .service 1 [0, 0, 0, 0, 0, 0]) =
      some (.wrongState, []) := by decide +kernel

theorem test_nzcommit_writes_the_table :
    ((after staged (.nzcommit .service 1 [0, 0, 0, 0, 0, 0])).lane .hl0).nozzles =
      [⟨.failed .set, some 1, -1, 0, 0⟩, ⟨.failed .set, some 1, -1, 0, 0⟩] := by decide +kernel

/-- A transition for page 4, row 1, with B1 switched already or not in the set. -/
def aligned (b1 : Option Bool) : State :=
  staged.setLists { staged.lists with
    pending := []
    transition := some ⟨4, 1, [someEdit], ⟨some false, b1, none, none⟩⟩ }

theorem test_bar_switches :
    ((aligned (some false)).switchBar .b0 4 1).lists.transition =
        some ⟨4, 1, [someEdit], ⟨some true, some false, none, none⟩⟩ ∧
      ((aligned none).switchBar .b0 4 1).lists.transition = none ∧
      (((aligned none).switchBar .b0 4 1).link .service).flags = 0x20 ∧
      (aligned none).switchBar .b0 4 0 = aligned none := by decide +kernel

theorem test_auto_mark :
    let t := staged.autoMark .hl0 ⟨1, .short⟩
    (t.lane .hl0).nozzles[1]? = some ⟨.failed .short, none, -1, 0, 0⟩ ∧
      t.lists.pending.map (·.excluded) = [[1]] ∧ t.lists.superseded = 1 ∧ t.lists.stage = 1 ∧
      (t.autoMark .hl0 ⟨0, .openNozzle⟩).lists.pending = [] ∧ staged.autoMark .hl0 ⟨1024, .short⟩ = staged := by
  decide +kernel

theorem test_nzdrop :
    statuses staged (.nzdrop .service 1) [[0], []] = [some .badLength, some .ok] ∧
      replyTo staged (.nzdrop .service 1 []) = some (.ok, [0, 1]) ∧
      (after staged (.nzdrop .service 1 [])).lists.pending = [] := by decide +kernel

theorem test_nzread_checks :
    statuses whole (.nzread .service 1)
      [[0], [8, 0, 0, 0, 1], [0, 4, 0, 0, 1], [0, 0, 0, 0, 0], [0, 0, 0, 1, 1], [7, 3, 255, 0, 2], [7, 3, 255, 0, 1]] =
      [some .badLength, some .badField, some .badField, some .badField, some .badField, some .badField, some .ok] := by
  decide +kernel

theorem test_nzread_entry :
    replyTo (aligned none) (.nzread .service 1 [0, 0, 1, 0, 1]) =
      some (.ok, [0, 0, 0, 4, 0, 1, 0, 0, 1, 0x21, 0x0F, 0x50, 6]) := by decide +kernel

theorem test_ptnew_checks :
    statuses (patterns bare) (.ptnew .service 1)
      [[0, 0, 1], [0, 0, 1, 66, 66, 66, 66, 66, 66, 66, 66, 66], [2, 0, 1, 66], [0, 0, 0, 66], [0, 1, 1, 66],
       [0, 0, 1, 0x60], [0, 0, 1, 0x41], [1, 1, 0, 0x2D]] =
      [some .badLength, some .badLength, some .badField, some .badField, some .badField, some .badField, some .exists_,
       some .ok] ∧
    replyTo (patterns bare) (.ptnew .service 1 [0, 0, 2, 66]) = some (.ok, [0, 3]) ∧
    replyTo (patterns bare) (.ptnew .service 1 [0, 0, 3, 66]) = some (.ok, [0, 6]) := by decide +kernel

theorem test_ptnew_capacity :
    replyTo (bare.setDirectory ((List.range 24).map fun i => ⟨[be8 (65 + i)], .spit, 1, i, false, []⟩))
        (.ptnew .service 1 [0, 0, 1, 0x30]) = some (.full, []) ∧
      replyTo (bare.setDirectory ((List.range 4).map fun i => ⟨[be8 (65 + i)], .spit, 256, 256 * i, false, []⟩))
        (.ptnew .service 1 [0, 0, 1, 0x30]) = some (.noSpace, []) := by decide +kernel

/-- A PTROW payload. -/
def patternRow (name : List Byte) (i : Nat) : List Byte := padTo 8 name ++ be16 i ++ List.replicate 256 0

theorem test_ptrow_checks :
    statuses (patterns bare) (.ptrow .service 1)
      [[0], patternRow [] 0, patternRow [65, 0, 65] 0, patternRow [66] 0, patternRow [65] 2, patternRow [78] 0] =
      [some .badLength, some .badField, some .badField, some .notFound, some .badField, some .ok] ∧
    replyTo (patterns bare) (.ptrow .service 1 (patternRow [78] 0)) = some (.ok, [0, 1, 1]) := by decide +kernel

theorem test_ptdel_checks :
    statuses (patterns bare) (.ptdel .service 1) [[], [65, 65, 65, 65, 65, 65, 65, 65, 65], [0x40], [66], [65]] =
      [some .badLength, some .badLength, some .badField, some .notFound, some .ok] ∧
    replyTo (patterns bare) (.ptdel .service 1 [65]) = some (.ok, [3, 254]) ∧
    replyTo ((patterns bare).modBar .b2 fun x => { x with gapPlay := some ⟨[65], .check, 0, .check⟩ })
      (.ptdel .service 1 [65]) = some (.inUse, []) ∧
    replyTo (holding (patterns bare) [{ page 1 .armed with gap := some [65] }] []) (.ptdel .service 1 [65]) =
      some (.inUse, []) := by decide +kernel

theorem test_ptlist :
    statuses (patterns bare) (.ptlist .service 1) [[0], []] = [some .badLength, some .ok] ∧
      ((replyTo (patterns bare) (.ptlist .service 1 [])).map fun r => (r.2.length, r.2.take 5)) =
        some (4 + 1 + 3 * 16 + 4 * 14 + 1, [3, 252, 3, 250, 3]) := by decide +kernel

theorem test_chkprint_checks :
    statuses intake (.chkprint .service 1)
      [[0, 1], [2, 1, 65], [0, 0, 65], [0, 16, 65], [0, 1, 0x40], [0, 3, 65], [0, 1, 66], [0, 1, 78], [0, 1, 83],
       [1, 1, 65], [0, 1, 65]] =
      [some .badLength, some .badField, some .badField, some .badField, some .badField, some .badField, some .notFound,
       some .notFound, some .badField, none, some .ok] ∧
    replyTo (after intake (.chkprint .service 1 [0, 1, 65])) (.chkprint .service 1 [0, 1, 65]) =
      some (.wrongState, []) := by decide +kernel

theorem test_chkprint_opens_a_check :
    let s := intake.setLibrary { intake.library with
      checkCount := 255, checks := List.replicate 4 ⟨9, [65], ⟨none, none, none, none⟩, true⟩ }
    let t := after s (.chkprint .service 1 [0, 1, 65])
    (t.bar .b0).checkSlot = some (.waiting 1) ∧ t.library.checks.map (·.id) = [9, 9, 9, 1] := by decide +kernel

/-- A wait and a ROWPUT in progress. -/
def waits (s : State) : State := s.setBusy .service (some (.waiting 9 (.hdon .hl0)))

theorem test_prreset :
    let t := after (waits (writing 0)) (.prreset .service 1 [])
    t.ring = { rows := [], roomMark := 256, store := .free } ∧ t.queue.pages = [] ∧
      t.sent.take 2 = [.reply .service 9 .aborted [], .reply .image 1 .aborted []] ∧
      t.sent.getLast? = some (.reply .service 1 .ok []) ∧ (t.link .service).flags = 0x100 ∧
      statuses bare (.prreset .service 1) [[0]] = [some .badLength] := by decide +kernel

theorem test_statrd :
    statuses bare (.statrd .image 1) [[0]] = [some .badLength] ∧
      ((replyTo everyState (.statrd .motion 1 [])).map fun r => (r.2.length, r.2.take 8)) =
        some (105, [0, 1, 7, 255, 5, 0, 4, 0]) := by decide +kernel

theorem test_pgstat :
    statuses everyState (.pgstat .motion 1) [[0], [0, 9], [0, 3], [0, 0]] =
        [some .badLength, some .notFound, some .ok, some .ok] ∧
      ((replyTo everyState (.pgstat .image 1 [0, 0])).map (·.2.length)) = some 241 ∧
      ((replyTo everyState (.pgstat .image 1 [0, 2])).map (·.2.take 8)) = some [0, 2, 0, 3, 1, 4, 0, 2] := by
  decide +kernel

/-- A state with flags 3 and mask 1 on the Image link. -/
def flagged : State := (bare.modLink .image fun k => { k with flags := 3, mask := 1 }).driveAttention

theorem test_event_requests :
    replyTo flagged (.evrd .image 1 []) = some (.ok, [0, 3, 0, 1]) ∧
      statuses flagged (.evrd .image 1) [[0]] = [some .badLength] ∧
      statuses flagged (.evclr .image 1) [[0], [0, 0x20], [0, 0x1F]] = [some .badLength, some .badField, some .ok] ∧
      statuses flagged (.evmask .image 1) [[0], [0, 0x20], [0, 0x1F]] = [some .badLength, some .badField, some .ok] := by
  decide +kernel

theorem test_attention_follows :
    (flagged.link .image).attn = true ∧
      ((after flagged (.evclr .image 1 [0, 2])).link .image).attn = false ∧
      ((after flagged (.evmask .image 1 [0, 3])).link .image).attn = false ∧
      ((after flagged (.evmask .image 1 [0, 0])).link .image).attn = true := by decide +kernel

theorem test_wdraw :
    statuses bare (.wdraw .service 1) [[0], []] = [some .badLength, some .wrongState] ∧
      (after (waits bare) (.wdraw .service 1 [])).sent =
        [.reply .service 9 .withdrawn [], .reply .service 1 .ok []] ∧
      ((after (waits bare) (.wdraw .service 1 [])).link .service).busy = none := by decide +kernel

theorem test_requests_turned_away :
    (replyTo bare (.pgopen .image 0 [])) = some (.badField, []) ∧
      (replyTo bare (.pgopen .motion 1 [])) = some (.notPermitted, []) ∧
      (replyTo (waits bare) (.nzdrop .service 1 [])) = some (.busy, []) ∧
      (replyTo (waits bare) (.prreset .service 1 [])) = some (.ok, []) ∧
      (replyTo bare (.unknown .image 1 7 [])) = some (.unknown, []) ∧
      [LinkId.image, .motion, .service].map numbersOf = [LinkId.image, .motion, .service].map (fun l =>
        (List.range 256).filter fun n => definedNumber n && permitted n l) := by decide +kernel

/-! ### Packets -/

/-- The bytes of SUPPR with value 1, tag 9: start, tag, length, number, payload, check. -/
def suppressPacket : List Byte := 0x5C :: packetBody 9 11 [1]

theorem test_packet_bytes_are_the_request :
    (nextOf (Sys2Proof.core.run 8 (bare.setPending (suppressPacket.map (Instr.packetByte .motion))))).map
        (fun t => (t.queue.suppress, t.sent)) = some (true, [.reply .motion 9 .ok []]) ∧
      suppressPacket.length = 7 := by decide +kernel

/-- An assembler in RECEIVING or CHECKING. -/
def assembling (x : Assembler) : State := bare.modLink .image fun k => { k with assembler := x }

theorem test_packet_byte :
    [(Assembler.idle, (0x5C : Byte)), (.idle, 0x5B), (.receiving [1, 4, 0x11], 0), (.receiving [1, 0, 0, 34], 7),
        (.receiving [1, 0, 0], 34)].map
      (fun x => ((after (assembling x.1) (.packetByte .image x.2)).link .image).assembler) =
      [.receiving [], .idle, .idle, .checking [1, 0, 0, 34, 7], .receiving [1, 0, 0, 34]] := by decide +kernel

theorem test_bad_check :
    (let t := after bare (.badCheck .image)
    ((t.link .image).badCheck, t.sent) = (1, [.reply .image 0 .badCheck []])) ∧
      (let t := after (assembling (.checking [1, 0, 0, 34, 7])) (.badCheck .image)
      ((t.link .image).badCheck, t.sent) = (1, [.reply .image 0 .badCheck []])) ∧
      goodCheck [1, 0, 0, 34, 7] = false := by decide +kernel

theorem test_packet_length_discard :
    ((after bare (.packetLengthDiscard .image)).link .image).discarded = 1 ∧
      ((after (assembling (.receiving [1, 4, 0x11])) (.packetLengthDiscard .image)).link .image).discarded = 1 ∧
      overlong [1, 4, 0x11] = true ∧ overlong [1, 4, 0x10] = false := by decide +kernel

theorem test_packet_inactivity_timeout :
    ((after (assembling (.receiving [1])) (.packetInactivityTimeout .image)).link .image).discarded = 1 ∧
      after bare (.packetInactivityTimeout .image) = bare := by decide +kernel

/-! ### The web -/

/-- A position at depth d. -/
def atDepth (d : Line) : State := bare.setPosition { bare.position with depth := d, pitch := 257 }

theorem test_encoder_edge_counts :
    [(0, true, false), (2, true, false), (0, false, true), (0xFFFFFFFF, false, true), (0, true, true)].map
      (fun x => let p := (after (atDepth x.1) (.encoderEdge x.2.1 x.2.2)).position
        (p.encoder, p.highWater, p.depth, p.accumulator)) =
      [(1, 1, 0, 256), (1, 0, 1, 0), (0xFFFFFFFF, 0, 1, 0), (0xFFFFFFFF, 0xFFFFFFFF, 0xFFFFFFFF, 0), (0, 0, 0, 0)] := by
  decide +kernel

theorem test_encoder_edge_raises_a_tick :
    (after bare (.encoderEdge true false)).position.tickRaised = true ∧
      (after bare (.encoderEdge true false)).position.accumulator = 0 ∧
      (after (atDepth 0) (.encoderEdge true false)).position.tickRaised = false := by decide +kernel

theorem witness_edges :
    IsForward false false false true false ∧ IsForward true true false false false ∧
      IsReverse false false false false true ∧ ¬IsForward false false false true true ∧
      ¬IsReverse false false false true true := by
  simp [IsForward, IsReverse, IsBLeading, IsALeading]

theorem witness_line_tick :
    (bare.setPosition { bare.position with tickRaised := true }).position.tickRaised = true ∧
      after bare .lineTick = bare := by decide +kernel

theorem test_power_on :
    let t := after (everyState.setPending [.lineTick]) (.powerOn true false)
    t = { State.powerOn true false with
      lanes := .all { Lane.powerOn with identifies := 2 }
      library := t.library, sent := everyState.sent ++ powerOnIdentifies, pending := [.lineTick] } := by decide +kernel

/-! ### Head lanes -/

/-- HL0 with a running timer, in a state. -/
def timing (x : HeadState) : State :=
  oneHead fun ln =>
    { ln with
      head := x, warmTimer := some .ms40, settleTimer := some .ms40, retryTimer := true, target := 7, step := 2, drive := 4
      slewTimer := some .ms1 }

theorem test_warm_timer_expiry :
    (let t := after (waits (timing .warming)) (.warmTimerExpiry .hl0)
    (t.lane .hl0).head = .active ∧ (t.lane .hl0).drive = 0 ∧ t.sent = [.reply .service 9 .ok []]) ∧
      after (timing .parked) (.warmTimerExpiry .hl0) = timing .parked := by decide +kernel

theorem test_settle_timer_expiry :
    ((after (timing (.settling .off)) (.settleTimerExpiry .hl0)).lane .hl0).head = .off ∧
      ((after (timing (.settling .parked)) (.settleTimerExpiry .hl0)).link .service).flags = 8 ∧
      after (timing .off) (.settleTimerExpiry .hl0) = timing .off := by decide +kernel

theorem test_retry_timer_expiry :
    (let t := after (timing .recovery) (.retryTimerExpiry .hl0)
    (t.lane .hl0).probe = some .retry ∧ t.sent = [.head .hl0 .identify]) ∧
      after (timing .failed) (.retryTimerExpiry .hl0) = timing .failed := by decide +kernel

theorem test_slew_timer_expiry :
    ((after (timing .active) (.slewTimerExpiry .hl0)).lane .hl0).drive = 6 ∧
      ((after (after (timing .active) (.slewTimerExpiry .hl0)) (.slewTimerExpiry .hl0)).lane .hl0).slewTimer = none ∧
      after (timing .off) (.slewTimerExpiry .hl0) = timing .off := by decide +kernel

/-- HL0 awaiting an identify's answer for a probe. -/
def probing (p : Probe) (x : HeadState) : State :=
  oneHead fun ln => { ln with head := x, probe := some p, exchange := some .identify, lastFault := some .overtemp, retries := 1 }

theorem test_identify_answer :
    [(Probe.plain true, HeadState.absent, 1024, (30 : Byte)), (.plain true, .off, 1023, 30), (.retry, .recovery, 1024, 64),
        (.retry, .recovery, 1024, 65), (.retry, .recovery, 0, 30)].map (fun x =>
      let t := after (probing x.1 x.2.1) (.identifyAnswer .hl0 ⟨1, x.2.2.1⟩ x.2.2.2)
      ((t.lane .hl0).head, (t.lane .hl0).probe, (t.link .service).flags)) =
      [(.off, none, 0x80), (.absent, none, 0x80), (.warming, none, 0), (.recovery, none, 0), (.absent, none, 0x80)] ∧
    after bare (.identifyAnswer .hl0 ⟨1, 1024⟩ 30) = bare := by decide +kernel

theorem test_identify_timeout :
    [(Probe.plain true, HeadState.off), (.retry, .recovery)].map (fun x =>
      let t := after (probing x.1 x.2) (.identifyTimeout .hl0)
      ((t.lane .hl0).head, (t.lane .hl0).retries, (t.link .service).flags)) = [(.absent, 1, 0x80), (.recovery, 2, 1)] ∧
    (let s := (probing (.plain true) .off).setBusy .service
      (some (.scan 9 (.ofFn fun h => h == .hl0) (.all false)))
    (after s (.identifyAnswer .hl0 ⟨1, 1024⟩ 30)).sent = [.reply .service 9 .ok [1]]) := by decide +kernel

/-- HL0 with a load at a stage. -/
def loading (st : LoadStage) (ex : Option Exchange) (row : LoadRow) : State :=
  oneHead fun ln =>
    { ln with
      head := .active, exchange := ex, load := some ⟨row, st, 3, 0, [⟨.l1, .plain⟩]⟩, check := 2, noReply := 2, drive := 8
      nozzles := [.powerOn] }

theorem test_load_reply :
    [LoadStatus.ok, .loadCheck, .driveFault].map (fun st =>
      let t := after (loading .awaiting (some (.load 3)) .gap) (.loadReply .hl0 3 st 69 [⟨0, .short⟩])
      ((t.lane .hl0).head, (t.lane .hl0).load.map (·.stage), (t.lane .hl0).lastFault, (t.link .service).flags)) =
      [(.active, some .complete, none, 4), (.recovery, none, some .laneError, 5), (.recovery, none, some .driveFault, 5)] ∧
    ((after (loading .awaiting (some (.load 3)) .gap) (.loadReply .hl0 3 .ok 70 [])).lane .hl0).lastFault = some .overtemp ∧
    after (loading .awaiting (some (.load 3)) .gap) (.loadReply .hl0 4 .ok 70 []) =
      loading .awaiting (some (.load 3)) .gap := by decide +kernel

theorem test_load_reply_timeout :
    ((after (loading .awaiting (some (.load 3)) .gap) (.loadReplyTimeout .hl0)).lane .hl0).lastFault = some .laneLoss ∧
      after bare (.loadReplyTimeout .hl0) = bare := by decide +kernel

theorem test_fire_complete :
    let s := oneHead fun ln => { ln with fire := some ⟨.gap, .complete, 3, 0, []⟩, fireOpen := true }
    ((after s (.fireComplete .hl0 3)).lane .hl0).fireOpen = false ∧ after s (.fireComplete .hl0 4) = s := by
  decide +kernel

theorem test_load_send :
    (let t := after (loading .transfer none .gap) (.loadSend .hl0)
    t.sent = [.head .hl0 (.load 1 8 [⟨.l1, .plain⟩])] ∧ (t.lane .hl0).exchange = some (.load 1)) ∧
      after (loading .transfer (some .identify) .gap) (.loadSend .hl0) = loading .transfer (some .identify) .gap := by
  decide +kernel

theorem test_row_store_grant :
    (after (loading .readWait none (.page 5 0)) .rowStoreGrant).ring.store = .read .hl0 ∧
      (after (after intake (.rowput .image 1 (part 5 0 0 256))) .rowStoreGrant).ring.store = .write ∧
      after bare .rowStoreGrant = bare := by decide +kernel

theorem test_row_store_read_done :
    let s := (loading .readRun none (.page 5 0)).setStore (.read .hl0)
    ((after s .rowStoreReadDone).lane .hl0).load.map (·.stage) = some .transfer ∧
      (after s .rowStoreReadDone).ring.store = .free ∧ after bare .rowStoreReadDone = bare := by decide +kernel

/-! ### Row delivery and drops -/

theorem test_heads_fire_or_miss :
    [(LoadStage.complete, false, false, false), (.awaiting, false, false, false), (.complete, true, false, false),
        (.complete, false, true, false), (.complete, true, true, false), (.readWait, false, false, true)].map (fun x =>
      let s := (loading x.1 none (.page 3 0)).modLane .hl0 fun ln => { ln with fireOpen := x.2.1 }
      let t := (holding s [page 3 .printing] []).tickHead .page 500 (some 3) x.2.2.1 x.2.2.2 .hl0
      (t.sent, t.position.overspeed, (t.page 3).map fun q => (q.missedLate, q.missedOverspeed))) =
      [([.head .hl0 (.fire 3 .full)], 0, some (0, 0)), ([], 0, some (1, 0)), ([], 1, some (0, 1)),
       ([.head .hl0 (.fire 3 .keepWetOnly)], 0, some (0, 0)), ([], 0, some (0, 0)), ([], 0, some (0, 0))] := by decide +kernel

/-- A PRINTING page at line `n`, its trigger at line 0, one row complete. -/
def printing (policy : UnderrunPolicy) (rows : List RowRec) (n : Line) : State :=
  let s := (headIn .active).modBar .b0 fun x => { x with inEffect := { x.inEffect with policy := policy } }
  (holding s [page 3 .printing] rows).setPosition { s.position with line := n }

theorem test_passes :
    [printing .blank [rowOf 3 0 .blank] 1, printing .blank [] 1, printing .halt [] 1,
        (printing .blank [] 1).setQueue { (printing .blank [] 1).queue with suppress := true }].map (fun s =>
      let t := s.passPage .b0 3 0
      ((t.page 3).map fun q => (q.state, q.progress.b0, q.missedUnderrun, q.suppressed), (t.link .image).flags)) =
      [(some (.printing, some 1, 0, 0), 0), (some (.printing, some 1, 1, 0), 4), (some (.aborted, some 0, 0, 0), 6),
       (some (.printing, some 1, 0, 1), 0)] := by decide +kernel

theorem witness_lines_give_rows :
    (page 3 .printing).Gives .b0 0 2 2 ∧ (∀ r, ¬(page 3 .armed).Gives .b0 0 2 r) ∧
      (∀ r, ¬(page 3 .printing).Gives .b0 0 3 r) := by
  refine ⟨⟨rfl, by decide, by decide, 0, rfl, by decide⟩, fun r h => ?_, fun r h => ?_⟩
  · cases h.1
  · obtain ⟨_, _, hr, t, ht, he⟩ := h
    have : t = 0 := by simpa [page] using ht.symm
    subst this
    have : r = 3 := by rw [← he]; decide
    simp [page, newPage] at hr; omega

theorem test_parks_and_pattern_rows :
    (let s := oneHead fun ln => { ln with head := .active, park := some false }
    ((s.takePark .b0 false .hl0).lane .hl0).head = .settling .parked ∧ s.takePark .b0 true .hl0 = s) ∧
      (let s := (patterns (headIn .off)).modBar .b0 fun x =>
        { x with next := .pattern, gapPlay := some ⟨[65], .check, 0, .page⟩ }
      ((s.gapAction .b0).bar .b0).gapPlay = some ⟨[65], .check, 1, .page⟩ ∧
        (((s.modBar .b0 fun x => { x with gapPlay := some ⟨[65], .check, 1, .page⟩ }).gapAction .b0).bar .b0).gapPlay =
          none) := by decide +kernel

theorem test_trim_and_keep_wet :
    [(Nozzle.mk .good none 7 8 0, Level.l1), (.mk .good none 7 9 0, .l1), (.mk .good none (-7) 9 0, .l1),
        (.mk .weak none 7 9 0, .l3), (.mk .disabled none 7 9 0, .l3)].map (fun x => trimmed x.1 x.2) =
      [(.l1, 15), (.l2, 0), (.l1, 0), (.l3, 0), (.l3, 9)] ∧
    [(KeepWet.off, 499), (.tickle, 499), (.tickle, 498), (.spitAny, 499), (.spitGap, 499)].map (fun x =>
        keepWetDrop .page ⟨.blank, .midpoint, x.1, 500⟩ ⟨.good, none, 0, 0, x.2⟩ .l0) =
      [⟨.l0, .plain⟩, ⟨.l0, .tickle⟩, ⟨.l0, .plain⟩, ⟨.l1, .spit⟩, ⟨.l0, .plain⟩] := by decide +kernel

theorem test_overlap :
    let good : Nozzle := .powerOn
    let out : Nozzle := { good with state := .disabled }
    [(31, good, good), (32, good, good), (31, out, good), (31, out, out)].map (fun x =>
      (holds .midpoint 0 0 true x.2.1 (.right x.1 64 true x.2.2), holds .midpoint 0 0 true x.2.2 (.left x.1 64 true x.2.1))) =
      [(true, false), (false, true), (false, true), (true, false)] := by decide +kernel

theorem test_head_leaves_active :
    let s := holding (loading .transfer none (.page 3 0)) [page 3 .printing] []
    ((s.leaveActive .hl0 .parked).page 3).map (fun q => (q.missedLate, q.degraded)) = some (1, true) ∧
      ((s.leaveActive .hl0 .parked).lane .hl0).load = none := by decide +kernel

theorem test_edits_write_in_order :
    writeEdits [someEdit, { someEdit with first := 1, count := 1, state := some .good, sub := none, trim := some 3 }] .hl0
        [⟨.failed .short, none, -1, 5, 6⟩, ⟨.weak, none, 0, 5, 6⟩] =
      [⟨.failed .set, some 1, -1, 5, 6⟩, ⟨.good, some 1, 3, 0, 0⟩] := by decide +kernel

/-! ### States that meet the hypotheses of statements about operations -/

theorem witness_abort_with_and_without_a_transition :
    ((aligned none).page 4).isSome = true ∧ (aligned none).lists.transition.map (·.page) = some 4 ∧
      (everyState.page 3).isSome = true ∧ everyState.lists.transition = none := by decide +kernel

theorem witness_write_in_progress :
    (writing 0).quiet = true ∧ (writing 0).ring.store = .write ∧
      ((writing 0).link .image).busy = some (.rowput 1 5 0 .b0 ((writing 0).partOf .b0 ((part 5 0 0 256).drop 5))) := by
  decide +kernel

theorem witness_a_waiting_check_is_found :
    let s := after intake (.chkprint .service 1 [0, 1, 65])
    (s.bar .b0).checkSlot = some (.waiting 1) ∧ (s.bar .b0).gapPlay = none ∧
      (s.library.checks.find? (·.runsAt .b0 1)).isSome = true ∧ s.pageRow .b0 s.position.line = none := by decide +kernel

theorem witness_passes_and_loads_of_a_page :
    (printing .blank [] 1).passedRow .b0 = some (3, 0) ∧ (printing .blank [] 1).comingRow .b0 = some (3, 1) ∧
      ((printing .blank [] 1).loadOf .b0 3 0).waiting = true ∧
      ((printing .blank [rowOf 3 0 .blank] 1).loadOf .b0 3 0).waiting = false := by decide +kernel

/-! ### What is raised takes place before the next command -/

/-- A link that is checking SUPPR's packet. -/
def dueSuppress : State :=
  bare.modLink .motion fun k => { k with assembler := .checking (suppressPacket.drop 1) }

theorem witness_raised_before_a_command :
    (let s := raised (atLine .auto 4 bare)
    ¬Delivers (.suppr .motion 1 [0]) s ∧ ¬Delivers .lineTick s ∧ Delivers .automaticTrigger s ∧
      (after s (.suppr .motion 1 [0])).position.empty = 1 ∧ s.position.tickRaised = false ∧ s.settle.quiet = true) ∧
    Delivers .lineTick (bare.setPosition { bare.position with tickRaised := true }) := by
  simp only [Delivers, requestOf]; decide +kernel

theorem witness_due_packet :
    Delivers (.suppr .motion 9 [1]) dueSuppress ∧ ¬Delivers (.suppr .motion 8 [1]) dueSuppress ∧
      dueSuppress.quietBut .motion ∧
      [after dueSuppress (.suppr .motion 9 [1]), after dueSuppress .rowStoreGrant, dueSuppress.settle].map
          (fun t => (t.queue.suppress, t.sent)) =
        List.replicate 3 (true, [.reply .motion 9 .ok []]) := by
  simp only [Delivers, requestOf, State.quietBut]; decide +kernel

theorem test_power_on_drops_what_is_raised :
    (after (raised (atLine .auto 4 bare)) (.powerOn false false)).position = .powerOn false false ∧
      (after dueSuppress (.powerOn false false)).sent = powerOnIdentifies := by decide +kernel

theorem test_late_answer_after_press_reset :
    let t := after (probing .retry .recovery) (.prreset .service 1 [])
    (t.lane .hl0).identifies = 2 ∧ after t (.identifyAnswer .hl0 ⟨1, 0⟩ 30) = t ∧
      ((after t (.identifyAnswer .hl0 ⟨2, 0⟩ 30)).lane .hl0).probe = none := by decide +kernel

theorem test_press_reset_and_the_row_store :
    [StoreAccess.free, .write, .read .hl3].map (fun x =>
      (after (bare.setStore x) (.prreset .service 1 [])).ring.store) = [.free, .free, .read .hl3] := by decide +kernel

/-! ### Loads that begin, checks that end, drops that move -/

/-- The load a bar's head holds and the bar's own record of it. -/
def begun (s : State) : Option LoadStage × Option (Bool × Bool) :=
  ((s.lane .hl0).load.map (·.stage),
    match (s.bar .b0).next with
    | .page pl => some (pl.waiting, pl.added)
    | _ => none)

theorem test_loads_begin :
    let now := printing .blank [rowOf 3 0 .blank] 0
    let later := (printing .blank [] 0).beginPage .b0 3 0
    begun (now.beginPage .b0 3 0) = (some .transfer, some (false, true)) ∧
      begun later = (some .waitingRow, some (true, false)) ∧
      begun ((later.setRows [rowOf 3 0 (.present ⟨0, [.l1]⟩)]).handRow 3 0) = (some .readWait, some (false, true)) ∧
      begun (now.beginGap .b0) = (some .transfer, none) ∧
      begun ((patterns now).beginPattern .b0 ⟨[65], .check, 1, .page⟩) = (some .transfer, none) := by decide +kernel

theorem witness_a_row_is_ready :
    let later := ((printing .blank [] 0).beginPage .b0 3 0).setRows [rowOf 3 0 .blank]
    later.RowIsReady 3 0 .b0 ⟨3, 0, .table, (later.bar .b0).inEffect, true, 0, 0, false⟩ ⟨.blank, false⟩ ∧
      (LaneId.hl0, 0) ∈ slotOrder later.assigns .b0 ∧ later.IsActiveAt .b0 .hl0 := by
  refine ⟨⟨by decide +kernel, rfl, rfl, rfl, rowOf 3 0 .blank, by decide +kernel, ?_, rfl⟩, by decide +kernel,
    by decide +kernel, ⟨.b0, 0, 0⟩, by decide +kernel, rfl⟩
  intro g y h
  cases g <;> simp [rowOf, PerBar.get] at h
  simp [← h]

/-- Bar B0 waits for a row of page 5. -/
def awaitingRow (row : Nat) (s : State) : State :=
  s.modBar .b0 fun x => { x with next := .page ⟨5, row, .table, x.inEffect, true, 0, 0, false⟩ }

theorem test_completed_rows_are_handed_over :
    (begun (after (awaitingRow 0 (writing 0)) .rowputWriteComplete)).2 = some (false, true) ∧
      (begun (after (awaitingRow 2 intake) (.rowskip .image 1 [0, 5, 0, 1, 0, 2]))).2 = some (false, true) ∧
      (begun (after (awaitingRow 2 intake) (.rowskip .image 1 [0, 5, 0, 1, 0, 1]))).2 = some (true, false) := by
  decide +kernel

/-- A check with id 7 of B0, and of B1 with `other`, PLAYING at B0 in row `n`; a CHKPRINT waits for it. -/
def checkPlay (n : Nat) (other : Option CheckBar) : State :=
  let s := (patterns (headIn .off)).modBar .b0 fun x =>
    { x with next := .pattern, gapPlay := some ⟨[65], .check, n, .check⟩, checkSlot := some (.playing 7 0) }
  let r : CheckRec := ⟨7, [65], ⟨some ⟨.playing, none, 0⟩, other, none, none⟩, false⟩
  (s.setLibrary { s.library with checks := [r] }).setBusy .service (some (.waiting 9 (.chkprint 7 r.barSet)))

/-- The check's end WHOLE, WHOLE with another bar left, TRUNCATED, and no end but a row played. -/
def checkEnds : List State :=
  [(checkPlay 1 none).gapAction .b0, (checkPlay 1 (some ⟨.waiting, none, 0⟩)).gapAction .b0,
   (checkPlay 0 none).truncatePlay .b0, (checkPlay 0 none).gapAction .b0]

theorem test_checks_end_in_their_records :
    checkEnds.map (fun t => t.library.checks.map fun r => (r.ended, r.bars.b0)) =
      [[(true, some ⟨.whole, none, 1⟩)], [(false, some ⟨.whole, none, 1⟩)], [(true, some ⟨.truncated, none, 0⟩)],
       [(false, some ⟨.playing, some 0, 0⟩)]] ∧
    checkEnds.map (fun t => (t.bar .b0).checkSlot) = [none, none, none, some (.playing 7 1)] := by decide +kernel

theorem test_checks_end_with_a_flag_and_a_reply :
    checkEnds.map (fun t => (t.library.truncated, (t.link .service).flags)) = [(0, 16), (0, 0), (2, 16), (0, 0)] ∧
    checkEnds.map (fun t => t.sent.map fun | .reply _ _ st p => some (st, p.take 2) | _ => none) =
      [[some (.ok, [7, 2])], [], [some (.failed, [7, 3])], []] := by decide +kernel

theorem witness_a_check_ends :
    ((checkPlay 1 none).library.checks.find? (·.runsAt .b0 7)).isSome = true ∧
      (checkPlay 1 none).pattern [65] ≠ none ∧ ((checkPlay 1 none).bar .b0).gapPlay ≠ none := by decide +kernel

theorem test_check_record :
    let r := checkRecord 0 ⟨7, [65], ⟨none, some ⟨.whole, some 0x01020304, 300⟩, none, none⟩, true⟩
    r.length = 43 ∧ r.take 27 =
      [7, 65, 0, 0, 0, 0, 0, 0, 0, 2, 1, 0, 0, 0, 0, 0, 0, 0, 0, 2, 1, 1, 2, 3, 4, 1, 44] := by decide +kernel

/-- Four nozzles, the first and the second DISABLED with the third as their substitute, or without one. -/
def fourNozzles (sub : Option Int) : List Nozzle :=
  [⟨.disabled, sub, 0, 0, 0⟩, ⟨.disabled, sub.map (· - 1), 0, 0, 0⟩, .powerOn, .powerOn]

theorem test_substitution_and_tallies :
    [some (2 : Int), none].map (fun sub =>
      let h := headShare ⟨.blank, .midpoint, .off, 500⟩ 0 0 true (fourNozzles sub) (List.replicate 4 .sole) [.l1, .l3, .l2, .l0]
      (h.drops.map (·.level), h.lost, h.substituted)) =
      [([.l0, .l0, .l3, .l0], 0, 2), ([.l0, .l0, .l2, .l0], 2, 0)] ∧
    (headShare ⟨.blank, .midpoint, .off, 500⟩ 0 0 false (fourNozzles none) (List.replicate 4 .sole) [.l1, .l3, .l2, .l0]).lost =
      3 := by decide +kernel

theorem test_tallies_are_settled :
    [(false, false), (false, true), (true, false), (true, true)].map (fun x =>
      let s := printing .blank [rowOf 3 0 .blank] 1
      let pl : PageLoad := ⟨3, 0, .table, (s.bar .b0).inEffect, false, 5, 2, x.1⟩
      let s := (s.modBar .b0 fun b => { b with next := .page pl }).modPage 3 fun p => { p with lost := 10, substituted := 4294967295 }
      ((s.setQueue { s.queue with suppress := x.2 }).passPage .b0 3 0).page 3 |>.map fun q => (q.lost, q.substituted, q.degraded)) =
      [some (15, 4294967295, true), some (10, 4294967295, false), some (10, 4294967295, false),
       some (5, 4294967295, false)] := by decide +kernel

/-! ### Heads at a tick, the ring and the last pass, overlap columns -/

/-- Bar B0 passes row `row` of page 3, which names pattern 'S'; its head is `x` and holds the row's complete load. -/
def passing (x : HeadState) (row : Nat) : State :=
  let s := (patterns (holding (headIn x)
    [{ page 3 .printing with progress := ⟨some row, none, none, none⟩, gap := some [0x53] }]
    [rowOf 3 row .blank, rowOf 3 9 .absent])).modLane .hl0 fun ln => { ln with load := some ⟨.page 3 row, .complete, 4, 0, []⟩ }
  s.modBar .b0 fun y => { y with next := .page ⟨3, row, .table, y.inEffect, false, 0, 0, true⟩ }

theorem test_a_pass_fires_and_moves_the_ring :
    let s := passing .active 0
    let t := s.passPage .b0 3 0
    s.IsActiveAt .b0 .hl0 ∧ t.sent = [.head .hl0 (.fire 4 .full)] ∧ t.ring.rows = [rowOf 3 9 .absent] ∧
      (t.page 3).map (·.state) = some .printing ∧ (t.bar .b0).gapPlay = none ∧ (t.link .service).flags = 0 := by
  refine ⟨⟨by decide +kernel, ⟨.b0, 0, 0⟩, by decide +kernel, rfl⟩, ?_⟩
  decide +kernel

theorem test_a_last_pass_is_done_and_starts_the_gap_pattern :
    let t := (passing .active 2).passPage .b0 3 2
    (t.page 3).map (·.state) = some .done ∧ (t.link .image).flags = 1 ∧ (t.link .motion).flags = 8 ∧
      (t.bar .b0).gapPlay = some ⟨[0x53], .spit, 0, .page⟩ := by decide +kernel

theorem test_a_dark_pass_is_reported_once :
    let t := (passing .off 0).passPage .b0 3 0
    let again := t.passPage .b0 3 1
    let last := again.passPage .b0 3 2
    (∀ h, ¬(passing .off 0).IsActiveAt .b0 h) ∧
      [t, again, last].map (fun u => ((u.link .service).flags, (u.bar .b0).darkReported)) =
        [(0x40, true), (0x40, true), (0x40, false)] ∧
      (((t.modLink .service fun k => { k with flags := 0 }).passPage .b0 3 1).link .service).flags = 0 := by
  refine ⟨fun h hh => ?_, by decide +kernel⟩
  have := hh.1
  revert this
  cases h <;> decide +kernel

theorem test_gap_rows_fire_and_abandoned_loads_do_not :
    [(BarNext.gap, none), (.idle, none), (.pattern, some ⟨[0x53], .spit, 0, .page⟩)].map (fun x =>
      (((passing .active 0).modBar .b0 fun y => { y with next := x.1, gapPlay := x.2 }).gapAction .b0).sent) =
      [[.head .hl0 (.fire 4 .full)], [], [.head .hl0 (.fire 4 .full)]] := by decide +kernel

theorem test_a_check_starts_in_its_record :
    let t := (after intake (.chkprint .service 1 [0, 1, 65])).beginLoads .b0
    t.library.checks.map (fun r => r.bars.b0.map (·.outcome)) = [some .playing] ∧
      (t.bar .b0).checkSlot = some (.playing 1 0) ∧ (t.bar .b0).next = .pattern := by decide +kernel

theorem test_an_abort_answers_a_waiting_commit :
    let s := aligned none
    let t := (s.setBusy .service (some (.waiting 9 .nzcommit))).abortPage 4 .cancelled
    (t.link .service).busy = none ∧ t.sent = s.sent ++ [.reply .service 9 .ok [0, 1]] ∧
      (t.link .service).flags = 0x20 ∧ (s.abortPage 4 .cancelled).sent = s.sent := by decide +kernel

theorem test_levels_are_unpacked_and_lie_at_their_columns :
    unpackLevels 6 [0x1B, 0xE4] = [.l3, .l2, .l1, .l0, .l0, .l1] ∧
      (let part : Option PlanePart := some ⟨2, [.l1, .l2, .l3]⟩
      [0, 2, 4].map (fun first => (partLevels part first).take 4) =
        [[.l0, .l0, .l1, .l2], [.l1, .l2, .l3, .l0], [.l3, .l0, .l0, .l0]]) ∧ partLevels none 0 = gapLevels := by decide +kernel

theorem test_overlap_columns_lie_over_their_partners :
    let head := fun (h : LaneId) (c : Nat) =>
      (⟨h, c, true, (List.range 1024).map fun n => { Nozzle.powerOn with idle := n }⟩ : AssignHead)
    let ps := partnersOf (some (head .hl0 0)) (head .hl1 960) (some (head .hl2 1983))
    [0, 63, 64, 1022, 1023].map (fun n => ps[n]?) =
      [some (.left 0 64 true { Nozzle.powerOn with idle := 960 }), some (.left 63 64 true { Nozzle.powerOn with idle := 1023 }),
       some .sole, some .sole, some (.right 0 1 true .powerOn)] ∧ ps.length = 1024 := by decide +kernel

theorem witness_requests_in_progress :
    (waits bare).quiet = true ∧ ((waits bare).link .service).busy.isSome = true ∧
      Memory.wf bare.library.memory = true ∧ bare.pending = [] ∧ (bare.link .image).assembler = .idle := by decide +kernel

end Sys2Proof.Tests
end

section
/-! SUPPORT. Taking a request on a free link: the act that only refuses, and the act whose effect leaves what the
outputs are driven from. -/

namespace Sys2Proof.Machine

/-- What READY, ROOM and the attention outputs are driven from stands after an effect as it stood before (R18, R43,
R182). -/
structure KeepsOutputs (s t : State) : Prop where
  ready : t.queue.ready = s.queue.ready
  condition : t.readyCondition = s.readyCondition
  links : t.links = s.links
  rows : t.ring.rows = s.ring.rows

theorem KeepsOutputs.outputsFollow {s t : State} (k : KeepsOutputs s t) (h : s.outputsFollow) : t.outputsFollow := by
  obtain ⟨hready, hattn⟩ := h
  refine ⟨by rw [k.ready, k.condition, hready], fun l => ?_⟩
  have hl : t.link l = s.link l := by rw [State.link, State.link, k.links]
  rw [hl, hattn l]

/-- An effect that leaves pages, margin, READY, lanes, links and rows keeps the outputs. -/
theorem KeepsOutputs.of_eq {s t : State} (hpages : t.queue.pages = s.queue.pages)
    (hmargin : t.queue.readyMargin = s.queue.readyMargin) (hready : t.queue.ready = s.queue.ready)
    (hlanes : t.lanes = s.lanes) (hlinks : t.links = s.links) (hrows : t.ring.rows = s.ring.rows) :
    KeepsOutputs s t :=
  ⟨hready, readyCondition_congr t s hpages hmargin hlanes, hlinks, hrows⟩

theorem idleAssembler_outputsFollow (s : State) (l : LinkId) (h : s.outputsFollow) :
    (s.idleAssembler l).outputsFollow := by
  refine outputsFollow_congr s _ h rfl rfl fun m => ?_
  rw [idleAssembler_link]
  split <;> exact ⟨rfl, rfl, rfl⟩

section Taken

variable {c : Instr} {s : State} {l : LinkId} {tag : Byte} {p : List Byte} {act : Act}

/-- A command that is a request of its link, where the link listens, is its act. -/
theorem exec_of_listens {n : Nat} (h : s.listens l tag) (hc : exec c s = .next (s.request l tag n act p))
    (hn : definedNumber n = true) (hp : permitted n l = true) :
    exec c s = .next (s.taken l fun u => act u l tag p) := by
  rw [hc, request_of_hears s l tag n act p h.1 hn hp]

/-- An act that refuses is the command's refusal. -/
theorem refuses_of_act {st : Status} (h : s.listens l tag) (hc : exec c s = .next (s.taken l fun u => act u l tag p))
    (ha : act (s.idleAssembler l) l tag p = (s.idleAssembler l).refuse l tag st) : Refuses c s l tag st := by
  obtain ⟨_, ho⟩ := h
  rw [Refuses, hc, ← taken_reply s l tag st [] ho]
  exact congrArg Host.Outcome.next (event_congr ha)

/-- An act that has an effect, replies OK and keeps the outputs is the whole of the command. -/
theorem acceptsPlain_of_act {effect : State → State} {payload : List Byte} (h : s.listens l tag)
    (hc : exec c s = .next (s.taken l fun u => act u l tag p))
    (ha : act (s.idleAssembler l) l tag p = (effect (s.idleAssembler l)).reply l tag .ok payload)
    (hk : KeepsOutputs (s.idleAssembler l) (effect (s.idleAssembler l))) :
    AcceptsPlain c s l tag effect payload := by
  have ho := hk.outputsFollow (idleAssembler_outputsFollow s l h.2)
  have hf : ((effect (s.idleAssembler l)).reply l tag .ok payload).freeSlots = s.freeSlots := by
    simp only [State.freeSlots, reply_ring, hk.rows, idleAssembler_ring]
  rw [AcceptsPlain, hc, State.taken, event_congr (g := fun u => (effect (u.idleAssembler l)).reply l tag .ok payload) ha,
    event_eq_self _ s ho hf]

end Taken

end Sys2Proof.Machine
end

section
/-! SUPPORT. Payload fields and operand codes as the statements name them. -/

namespace Sys2Proof.Machine

@[simp] theorem byteAt_cons_zero (x : Byte) (xs : List Byte) : byteAt (x :: xs) 0 = x.toNat := rfl

@[simp] theorem byteAt_cons_succ (x : Byte) (xs : List Byte) (i : Nat) : byteAt (x :: xs) (i + 1) = byteAt xs i := rfl

/-- The model's reading of two bytes is the statements' two-byte field (R180). -/
theorem u16_eq_wordAt (hi lo : Byte) : u16 hi lo = wordAt [hi, lo] 0 := by
  simp [wordAt, u16, Nat.mul_comm]

theorem laneOf_eq_none : ∀ {n : Nat}, 7 < n → laneOf n = none
  | _ + 8, _ => rfl

@[simp] theorem laneOf_laneNumber (h : LaneId) : laneOf (laneNumber h) = some h := by
  cases h <;> rfl

theorem barOf_eq_none : ∀ {n : Nat}, 3 < n → barOf n = none
  | _ + 4, _ => rfl

@[simp] theorem barOf_barNumber (b : BarId) : barOf (barNumber b) = some b := by
  cases b <;> rfl

/-- The runtime fields that codes in range name (R68). -/
def namedFields (policy handover keepWet limit : Nat) : BarFields where
  policy := if policy = 0 then .blank else .halt
  handover := if handover = 0 then .midpoint else .interleave
  keepWet := if keepWet = 0 then .off else if keepWet = 1 then .tickle else if keepWet = 2 then .spitGap else .spitAny
  limit := limit

/-- Codes and a limit in range give the fields they name (R68). -/
theorem barFieldsOf_of_inRange {policy handover keepWet limit : Nat} (hp : policy ≤ 1) (hh : handover ≤ 1)
    (hw : keepWet ≤ 3) (hk : 1 ≤ limit ∧ limit ≤ 4095) :
    barFieldsOf policy handover keepWet limit = some (namedFields policy handover keepWet limit) := by
  interval_cases policy <;> interval_cases handover <;> interval_cases keepWet <;> simp [barFieldsOf, namedFields, hk]

/-- A code or limit out of range gives no runtime fields (R68). -/
theorem barFieldsOf_of_outOfRange {policy handover keepWet limit : Nat}
    (h : 1 < policy ∨ 1 < handover ∨ 3 < keepWet ∨ limit = 0 ∨ 4095 < limit) :
    barFieldsOf policy handover keepWet limit = none := by
  unfold barFieldsOf
  rcases h with hp | hh | hw | hk
  · obtain ⟨m, rfl⟩ := Nat.exists_eq_add_of_le' hp
    rfl
  · obtain ⟨m, rfl⟩ := Nat.exists_eq_add_of_le' hh
    simp
  · obtain ⟨m, rfl⟩ := Nat.exists_eq_add_of_le' hw
    simp
  · have hout : ¬(1 ≤ limit ∧ limit ≤ 4095) := by omega
    simp only [hout, if_false]
    split <;> rfl

end Sys2Proof.Machine
end

section
/-! SUPPORT. What RINGMARK, SUPPR, LNZERO, BARSET, HDREIN and NZDROP do, check by check. -/

namespace Sys2Proof.Machine

/-! ### RINGMARK (R14) -/

theorem ringmark_eq (s : State) (l : LinkId) (tag : Byte) (p : List Byte) :
    s.ringmark l tag p =
      if p.length ≠ 2 then s.refuse l tag .badLength
      else if wordAt p 0 = 0 ∨ 2048 < wordAt p 0 then s.refuse l tag .badField
      else (s.setRing { s.ring with roomMark := wordAt p 0 }).reply l tag .ok (be16 (2048 - s.ring.rows.length)) := by
  by_cases h : p.length = 2
  · obtain ⟨hi, lo, rfl⟩ := List.length_eq_two.1 h
    have hc : (1 ≤ wordAt [hi, lo] 0 ∧ wordAt [hi, lo] 0 ≤ 2048) ↔
        ¬(wordAt [hi, lo] 0 = 0 ∨ 2048 < wordAt [hi, lo] 0) := by omega
    rw [if_neg (not_not.2 h)]
    simp only [State.ringmark, u16_eq_wordAt, hc, ite_not]
    rfl
  · rw [if_pos h, State.ringmark]
    rintro hi lo rfl
    exact h rfl

/-! ### SUPPR (R41) -/

theorem suppr_eq (s : State) (l : LinkId) (tag : Byte) (p : List Byte) :
    s.suppr l tag p =
      if p.length ≠ 1 then s.refuse l tag .badLength
      else if 1 < byteAt p 0 then s.refuse l tag .badField
      else (s.setQueue { s.queue with suppress := byteAt p 0 = 1 }).reply l tag .ok [] := by
  by_cases h : p.length = 1
  · obtain ⟨v, rfl⟩ := List.length_eq_one_iff.1 h
    have hc : (v.toNat = 0 ∨ v.toNat = 1) ↔ ¬1 < v.toNat := by omega
    rw [if_neg (not_not.2 h)]
    simp only [State.suppr, hc, ite_not]
    rfl
  · rw [if_pos h, State.suppr]
    rintro v rfl
    exact h rfl

/-! ### LNZERO (R60) -/

theorem anyPrinting_iff (s : State) : s.anyPrinting = true ↔ ∃ q ∈ s.queue.pages, q.state = .printing := by
  simp [State.anyPrinting]

/-! ### BARSET (R68) -/

theorem barset_of_length_ne (s : State) (l : LinkId) (tag : Byte) {p : List Byte} (h : p.length ≠ 6) :
    s.barset l tag p = s.refuse l tag .badLength := by
  rw [State.barset]
  rintro _ _ _ _ _ _ rfl
  exact h rfl

theorem barset_of_outOfRange (s : State) (l : LinkId) (tag : Byte) : ∀ {p : List Byte}, p.length = 6 →
    (3 < byteAt p 0 ∨ 1 < byteAt p 1 ∨ 1 < byteAt p 2 ∨ 3 < byteAt p 3 ∨ wordAt p 4 = 0 ∨ 4095 < wordAt p 4) →
    s.barset l tag p = s.refuse l tag .badField
  | [bar, policy, handover, wet, hi, lo], _, h => by
    rw [State.barset, u16_eq_wordAt]
    rcases h with hbar | hout
    · have hnone : barOf bar.toNat = none := barOf_eq_none hbar
      rw [hnone]
    · have hnone : barFieldsOf policy.toNat handover.toNat wet.toNat (wordAt [hi, lo] 0) = none :=
        barFieldsOf_of_outOfRange hout
      rw [hnone]
      cases barOf bar.toNat <;> rfl

theorem barset_of_inRange (s : State) (l : LinkId) (tag : Byte) (b : BarId) : ∀ {p : List Byte}, p.length = 6 →
    barNumber b = byteAt p 0 →
    ¬(3 < byteAt p 0 ∨ 1 < byteAt p 1 ∨ 1 < byteAt p 2 ∨ 3 < byteAt p 3 ∨ wordAt p 4 = 0 ∨ 4095 < wordAt p 4) →
    s.barset l tag p = (s.modBar b fun x =>
      { x with asSet := namedFields (byteAt p 1) (byteAt p 2) (byteAt p 3) (wordAt p 4) }).reply l tag .ok []
  | [bar, policy, handover, wet, hi, lo], _, hb, h => by
    simp only [not_or, not_lt] at h
    obtain ⟨_, hp, hh, hw, h0, hk⟩ := h
    have hfields : barFieldsOf policy.toNat handover.toNat wet.toNat (wordAt [hi, lo] 0) =
        some (namedFields policy.toNat handover.toNat wet.toNat (wordAt [hi, lo] 0)) :=
      barFieldsOf_of_inRange hp hh hw ⟨Nat.one_le_iff_ne_zero.2 h0, hk⟩
    rw [State.barset, u16_eq_wordAt, hfields, ← byteAt_cons_zero bar, ← hb, barOf_barNumber]
    rfl

/-! ### HDREIN (R152) -/

theorem hdrein_of_length_ne (s : State) (l : LinkId) (tag : Byte) {p : List Byte} (h : p.length ≠ 1) :
    s.hdrein l tag p = s.refuse l tag .badLength := by
  rw [State.hdrein]
  rintro _ rfl
  exact h rfl

theorem hdrein_of_no_lane (s : State) (l : LinkId) (tag : Byte) : ∀ {p : List Byte}, p.length = 1 → 7 < byteAt p 0 →
    s.hdrein l tag p = s.refuse l tag .badField
  | [lane], _, h => by
    rw [byteAt_cons_zero] at h
    rw [State.hdrein, laneOf_eq_none h]

theorem hdrein_of_lane (s : State) (l : LinkId) (tag : Byte) (h : LaneId) : ∀ {p : List Byte}, p.length = 1 →
    laneNumber h = byteAt p 0 →
    s.hdrein l tag p =
      if (s.lane h).head ≠ .failed then s.refuse l tag .wrongState
      else (s.modLane h fun x => { x with head := .off, retries := 0 }).reply l tag .ok []
  | [lane], _, hn => by
    rw [State.hdrein, ← byteAt_cons_zero lane, ← hn, laneOf_laneNumber, ite_not]

/-- A head that was not ACTIVE and is not made ACTIVE leaves READY's condition (R43). -/
theorem readyCondition_modLane_of_not_active (s : State) (h : LaneId) (f : Lane → Lane)
    (hold : (s.lane h).head ≠ .active) (hnew : (f (s.lane h)).head ≠ .active) :
    (s.modLane h f).readyCondition = s.readyCondition := by
  have hactive (b : BarId) : (s.modLane h f).activeLanes b = s.activeLanes b := by
    simp only [State.activeLanes, State.lanesOf, List.filter_filter]
    refine List.filter_congr fun g _ => ?_
    by_cases hg : g = h
    · subst hg
      simp [beq_eq_false_iff_ne.2 hold, beq_eq_false_iff_ne.2 hnew]
    · rw [modLane_lane_ne s f hg]
  simp only [State.readyCondition, State.armedPage, hactive]
  rfl

end Sys2Proof.Machine
end

section
/-! SUPPORT. The table of checks of each request that replaces one setting. -/

namespace Sys2Proof.Machine

variable {s : State} {tag : Byte}

theorem ringmark_checked (p : List Byte) (h : s.listens .image tag) :
    Checked (.ringmark .image tag p) s .image tag
      [(p.length ≠ 2, .badLength), (wordAt p 0 = 0 ∨ 2048 < wordAt p 0, .badField)]
      (AcceptsPlain (.ringmark .image tag p) s .image tag
        (fun u => u.setRing { u.ring with roomMark := wordAt p 0 }) (be16 (2048 - s.ring.rows.length))) := by
  have hc := exec_of_listens (c := .ringmark .image tag p) (act := State.ringmark) h rfl rfl rfl
  have ha := ringmark_eq (s.idleAssembler .image) .image tag p
  refine ⟨fun hlen => refuses_of_act h hc (ha.trans (if_pos hlen)), fun hlen => ?_⟩
  rw [if_neg hlen] at ha
  refine ⟨fun hmark => refuses_of_act h hc (ha.trans (if_pos hmark)), fun hmark => ?_⟩
  exact acceptsPlain_of_act h hc (ha.trans (if_neg hmark)) (.of_eq rfl rfl rfl rfl rfl rfl)

theorem suppr_checked (p : List Byte) (h : s.listens .motion tag) :
    Checked (.suppr .motion tag p) s .motion tag [(p.length ≠ 1, .badLength), (1 < byteAt p 0, .badField)]
      (AcceptsPlain (.suppr .motion tag p) s .motion tag
        (fun u => u.setQueue { u.queue with suppress := byteAt p 0 = 1 }) []) := by
  have hc := exec_of_listens (c := .suppr .motion tag p) (act := State.suppr) h rfl rfl rfl
  have ha := suppr_eq (s.idleAssembler .motion) .motion tag p
  refine ⟨fun hlen => refuses_of_act h hc (ha.trans (if_pos hlen)), fun hlen => ?_⟩
  rw [if_neg hlen] at ha
  refine ⟨fun hflag => refuses_of_act h hc (ha.trans (if_pos hflag)), fun hflag => ?_⟩
  exact acceptsPlain_of_act h hc (ha.trans (if_neg hflag)) (.of_eq rfl rfl rfl rfl rfl rfl)

theorem lnzero_checked (p : List Byte) (h : s.listens .motion tag) :
    Checked (.lnzero .motion tag p) s .motion tag
      [(p ≠ [], .badLength), (∃ q ∈ s.queue.pages, q.state = .printing, .wrongState)]
      (AcceptsPlain (.lnzero .motion tag p) s .motion tag
        (fun u => u.setPosition
          { u.position with
            encoder := 0, highWater := 0, depth := 0, accumulator := 0, line := 0
            lastTrigger := none, lastRows := 0 })
        []) := by
  have hc := exec_of_listens (c := .lnzero .motion tag p) (act := State.lnzero) h rfl rfl rfl
  have hprint := anyPrinting_iff (s.idleAssembler .motion)
  refine ⟨fun hlen => refuses_of_act h hc (if_pos hlen), fun hlen => ?_⟩
  refine ⟨fun hp => refuses_of_act h hc ((if_neg hlen).trans (if_pos (hprint.2 hp))), fun hp => ?_⟩
  exact acceptsPlain_of_act h hc ((if_neg hlen).trans (if_neg (mt hprint.1 hp))) (.of_eq rfl rfl rfl rfl rfl rfl)

theorem barset_checked (p : List Byte) (h : s.listens .service tag) :
    Checked (.barset .service tag p) s .service tag
      [(p.length ≠ 6, .badLength),
       (3 < byteAt p 0 ∨ 1 < byteAt p 1 ∨ 1 < byteAt p 2 ∨ 3 < byteAt p 3 ∨ wordAt p 4 = 0 ∨ 4095 < wordAt p 4,
         .badField)]
      (∀ b, barNumber b = byteAt p 0 →
        AcceptsPlain (.barset .service tag p) s .service tag
          (fun u => u.modBar b fun x =>
            { x with asSet := namedFields (byteAt p 1) (byteAt p 2) (byteAt p 3) (wordAt p 4) })
          []) := by
  have hc := exec_of_listens (c := .barset .service tag p) (act := State.barset) h rfl rfl rfl
  refine ⟨fun hlen => refuses_of_act h hc (barset_of_length_ne _ _ _ hlen), fun hlen => ?_⟩
  have hlen := not_not.1 hlen
  refine ⟨fun hout => refuses_of_act h hc (barset_of_outOfRange _ _ _ hlen hout), fun hin b hb => ?_⟩
  exact acceptsPlain_of_act h hc (barset_of_inRange _ _ _ b hlen hb hin) (.of_eq rfl rfl rfl rfl rfl rfl)

theorem hdrein_checked (p : List Byte) (h : s.listens .service tag) :
    Checked (.hdrein .service tag p) s .service tag [(p.length ≠ 1, .badLength), (7 < byteAt p 0, .badField)]
      (∀ g, laneNumber g = byteAt p 0 →
        Checked (.hdrein .service tag p) s .service tag [((s.lane g).head ≠ .failed, .wrongState)]
          (AcceptsPlain (.hdrein .service tag p) s .service tag
            (fun u => u.modLane g fun x => { x with head := .off, retries := 0 }) [])) := by
  have hc := exec_of_listens (c := .hdrein .service tag p) (act := State.hdrein) h rfl rfl rfl
  refine ⟨fun hlen => refuses_of_act h hc (hdrein_of_length_ne _ _ _ hlen), fun hlen => ?_⟩
  have hlen := not_not.1 hlen
  refine ⟨fun hout => refuses_of_act h hc (hdrein_of_no_lane _ _ _ hlen hout), fun _ g hg => ?_⟩
  have ha := hdrein_of_lane (s.idleAssembler .service) .service tag g hlen hg
  refine ⟨fun hhead => refuses_of_act h hc (ha.trans (if_pos hhead)), fun hhead => ?_⟩
  have hfailed : ((s.idleAssembler .service).lane g).head = .failed := not_not.1 hhead
  refine acceptsPlain_of_act h hc (ha.trans (if_neg hhead)) ⟨rfl, ?_, rfl, rfl⟩
  exact readyCondition_modLane_of_not_active _ g _ (by simp [hfailed]) (by simp)

theorem nzdrop_checked (p : List Byte) (h : s.listens .service tag) :
    Checked (.nzdrop .service tag p) s .service tag [(p ≠ [], .badLength)]
      (AcceptsPlain (.nzdrop .service tag p) s .service tag (fun u => u.setLists { u.lists with pending := [] })
        (be16 s.lists.pending.length)) := by
  have hc := exec_of_listens (c := .nzdrop .service tag p) (act := State.nzdrop) h rfl rfl rfl
  refine ⟨fun hlen => refuses_of_act h hc (if_pos hlen), fun hlen => ?_⟩
  exact acceptsPlain_of_act h hc (if_neg hlen) (.of_eq rfl rfl rfl rfl rfl rfl)

end Sys2Proof.Machine
end

section
/-! The requests that replace one setting each. -/

namespace Sys2Proof.Machine

/-- Settles O23: each of the six requests by its own table of checks. -/
theorem settingsAreReplacedAndNothingElse : Obligations.SettingsAreReplacedAndNothingElse :=
  ⟨fun _ _ p h => ringmark_checked p h, fun _ _ p h => suppr_checked p h, fun _ _ p h => lnzero_checked p h,
    fun _ _ p h => barset_checked p h, fun _ _ p h => hdrein_checked p h, fun _ _ p h => nzdrop_checked p h⟩

end Sys2Proof.Machine
end

section
/-! POWER_ON (R179): the lanes, bars and links of the state it leaves, and every block at its first value. -/

namespace Sys2Proof.Machine

theorem exec_powerOn (a b : Bool) (s : State) : exec (.powerOn a b) s = .next (s.restart a b) := rfl

theorem restart_lane (s : State) (a b : Bool) (h : LaneId) :
    (s.restart a b).lane h = { Lane.powerOn with identifies := (s.lane h).identifies + 1 } :=
  PerLane.get_map _ s.lanes h

theorem restart_bar (s : State) (a b : Bool) (x : BarId) : (s.restart a b).bar x = Bar.powerOn :=
  PerBar.get_all _ x

theorem restart_link (s : State) (a b : Bool) : ∀ l : LinkId, (s.restart a b).link l = Link.powerOn l
  | .image | .motion | .service => rfl

/-- Settles O3: the state after POWER_ON is `State.restart`, whose lanes, bars and links each have one equation. -/
theorem powerOnSetsEveryBlock : Obligations.PowerOnSetsEveryBlock := by
  refine ⟨fun a b s => ⟨s.restart a b, exec_powerOn a b s, ?_⟩, fun a b s => ⟨s.restart a b, exec_powerOn a b s, ?_⟩⟩
  · refine ⟨rfl, rfl, rfl, rfl, fun l => ?_, fun l => ?_, rfl, rfl, rfl⟩ <;> rw [restart_link] <;> rfl
  · refine ⟨fun h => ?_, rfl, fun h => ?_, fun x => ?_, rfl, rfl, rfl, rfl, fun l => ?_, rfl, rfl, rfl, rfl, rfl⟩
    · rw [restart_lane]
      rfl
    · rw [restart_lane]
      exact ⟨rfl, rfl, rfl, rfl, rfl, rfl, rfl, rfl, rfl, rfl, rfl, rfl, rfl, rfl, rfl, rfl, rfl, rfl, rfl, rfl, rfl,
        rfl, rfl⟩
    · rw [restart_bar]
      exact ⟨rfl, rfl, rfl, rfl, rfl, rfl, rfl, rfl⟩
    · rw [restart_link]
      exact ⟨rfl, rfl, rfl, rfl, rfl, rfl⟩

end Sys2Proof.Machine
end

section
/-! SUPPORT. What LNSETUP does, check by check, and its table of checks. -/

namespace Sys2Proof.Machine

/-- A request that has an effect and replies OK, the outputs following, is accepted. -/
theorem accepts_of_act {c : Instr} {s : State} {l : LinkId} {tag : Byte} {p : List Byte} {act : Act}
    {effect : State → State} {payload : List Byte} (hc : exec c s = .next (s.taken l fun u => act u l tag p))
    (ha : act (s.idleAssembler l) l tag p = (effect (s.idleAssembler l)).reply l tag .ok payload) :
    Accepts c s l tag effect payload :=
  hc.trans (congrArg Host.Outcome.next (event_congr ha))

/-- The trigger source that a code in range names (R58). -/
def namedSource (n : Nat) : TriggerSource := if n = 0 then .pdet else if n = 1 then .link else .auto

theorem sourceOf_of_inRange : ∀ {n : Nat}, n ≤ 2 → sourceOf n = some (namedSource n)
  | 0, _ | 1, _ | 2, _ => rfl

theorem sourceOf_eq_none : ∀ {n : Nat}, 2 < n → sourceOf n = none
  | _ + 3, _ => rfl

theorem lnsetup_of_length_ne (s : State) (l : LinkId) (tag : Byte) {p : List Byte} (h : p.length ≠ 10) :
    s.lnsetup l tag p = s.refuse l tag .badLength := by
  rw [State.lnsetup]
  rintro _ _ _ _ _ _ _ _ _ _ rfl
  exact h rfl

theorem lnsetup_of_outOfRange (s : State) (l : LinkId) (tag : Byte) : ∀ {p : List Byte}, p.length = 10 →
    (wordAt p 0 < 256 ∨ 1 < byteAt p 2 ∨ 2 < byteAt p 3 ∨ 2048 < wordAt p 8) →
    s.lnsetup l tag p = s.refuse l tag .badField
  | [p1, p0, sense, src, h1, h0, a1, a0, m1, m0], _, h => by
    simp only [State.lnsetup, u16_eq_wordAt]
    by_cases hsrc : 2 < src.toNat
    · rw [sourceOf_eq_none hsrc]
    · have hout : wordAt [p1, p0] 0 < 256 ∨ 1 < sense.toNat ∨ 2048 < wordAt [m1, m0] 0 := by
        rcases h with hpitch | hsense | hbad | hmargin
        · exact .inl hpitch
        · exact .inr (.inl hsense)
        · exact absurd hbad hsrc
        · exact .inr (.inr hmargin)
      rw [sourceOf_of_inRange (not_lt.1 hsrc)]
      exact if_pos hout

/-- Fields in range: the check against a PRINTING page, then every field at once (R58, R59). -/
theorem lnsetup_of_inRange (s : State) (l : LinkId) (tag : Byte) : ∀ {p : List Byte}, p.length = 10 →
    ¬(wordAt p 0 < 256 ∨ 1 < byteAt p 2 ∨ 2 < byteAt p 3 ∨ 2048 < wordAt p 8) →
    s.lnsetup l tag p =
      if s.anyPrinting ∧ (wordAt p 0 ≠ s.position.pitch ∨ decide (byteAt p 2 = 1) ≠ s.position.swapped) then
        s.refuse l tag .wrongState
      else
        ((s.setPosition (s.position.setup (wordAt p 0) (decide (byteAt p 2 = 1)) (namedSource (byteAt p 3))
          (wordAt p 4) (wordAt p 6))).setQueue { s.queue with readyMargin := wordAt p 8 }).reply l tag .ok []
  | [p1, p0, sense, src, h1, h0, a1, a0, m1, m0], _, h => by
    simp only [not_or, not_lt] at h
    obtain ⟨hpitch, hsense, hsrc, hmargin⟩ := h
    have hin : ¬(wordAt [p1, p0] 0 < 256 ∨ 1 < sense.toNat ∨ 2048 < wordAt [m1, m0] 0) :=
      not_or.2 ⟨not_lt.2 hpitch, not_or.2 ⟨not_lt.2 hsense, not_lt.2 hmargin⟩⟩
    have hsource : sourceOf src.toNat = some (namedSource src.toNat) := sourceOf_of_inRange hsrc
    simp only [State.lnsetup, u16_eq_wordAt, hsource, if_neg hin]
    rfl

theorem lnsetup_checked {s : State} {tag : Byte} (p : List Byte) (h : s.listens .motion tag) :
    Checked (.lnsetup .motion tag p) s .motion tag
      [(p.length ≠ 10, .badLength),
       (wordAt p 0 < 256 ∨ 1 < byteAt p 2 ∨ 2 < byteAt p 3 ∨ 2048 < wordAt p 8, .badField),
       ((∃ q ∈ s.queue.pages, q.state = .printing) ∧
          (wordAt p 0 ≠ s.position.pitch ∨ decide (byteAt p 2 = 1) ≠ s.position.swapped), .wrongState)]
      (Accepts (.lnsetup .motion tag p) s .motion tag
        (fun u => (u.setPosition (u.position.setup (wordAt p 0) (decide (byteAt p 2 = 1)) (namedSource (byteAt p 3))
          (wordAt p 4) (wordAt p 6))).setQueue { u.queue with readyMargin := wordAt p 8 })
        []) := by
  have hc := exec_of_listens (c := .lnsetup .motion tag p) (act := State.lnsetup) h rfl rfl rfl
  refine ⟨fun hlen => refuses_of_act h hc (lnsetup_of_length_ne _ _ _ hlen), fun hlen => ?_⟩
  have hlen := not_not.1 hlen
  refine ⟨fun hout => refuses_of_act h hc (lnsetup_of_outOfRange _ _ _ hlen hout), fun hin => ?_⟩
  have ha := lnsetup_of_inRange (s.idleAssembler .motion) .motion tag hlen hin
  have hprint := and_congr_left' (c := wordAt p 0 ≠ s.position.pitch ∨ decide (byteAt p 2 = 1) ≠ s.position.swapped)
    (anyPrinting_iff (s.idleAssembler .motion))
  refine ⟨fun hp => refuses_of_act h hc (ha.trans (if_pos (hprint.2 hp))), fun hp => ?_⟩
  exact accepts_of_act hc (ha.trans (if_neg (mt hprint.1 hp)))

end Sys2Proof.Machine
end

section
/-! LNSETUP sets the line. -/

namespace Sys2Proof.Machine

/-- Settles O28: the table of checks of LNSETUP, whose accepted effect is `Position.setup` and the ready margin. -/
theorem lnsetupSetsTheLine : Obligations.LnsetupSetsTheLine :=
  fun _ _ p h => lnsetup_checked p h

end Sys2Proof.Machine
end

section
/-! SUPPORT. The end of a wait, and WDRAW check by check: the one request that no request in progress turns away. -/

namespace Sys2Proof.Machine

/-! ### The end of an operation (R175) -/

theorem endWait_of_waiting {s : State} {tag : Byte} {op : WaitOp} (st : Status) (p : List Byte)
    (h : (s.link .service).busy = some (.waiting tag op)) :
    s.endWait op st p = (s.setBusy .service none).reply .service tag st p := by
  simp only [State.endWait, h, if_true]

theorem endWait_of_not_waiting {s : State} {op : WaitOp} (st : Status) (p : List Byte)
    (h : ∀ tag, (s.link .service).busy ≠ some (.waiting tag op)) : s.endWait op st p = s := by
  unfold State.endWait
  split
  next tag op' hb =>
    refine if_neg fun hop => h tag ?_
    rw [hb, hop]
  next => rfl

/-! ### Taking WDRAW (R173, R174) -/

theorem blocks_wdraw (x : Option InProgress) : blocks 39 x = false := by
  rcases x with _ | ⟨_ | _ | _⟩ <;> rfl

theorem turnedAway_of_tag_zero (s : State) (l : LinkId) (n : Nat) : s.turnedAway l 0 n = some .badField :=
  if_pos rfl

theorem turnedAway_wdraw (s : State) (l : LinkId) {tag : Byte} (h : tag ≠ 0) : s.turnedAway l tag 39 = none := by
  have hp : permitted 39 l = true := by cases l <;> rfl
  have hn : definedNumber 39 = true := rfl
  rw [State.turnedAway, if_neg h]
  simp [hn, hp, blocks_wdraw]

/-- WDRAW under a tag is its act, whatever its link has in progress. -/
theorem exec_wdraw_of_quiet {s : State} (l : LinkId) {tag : Byte} (p : List Byte) (hq : s.quiet = true)
    (ht : tag ≠ 0) : exec (.wdraw l tag p) s = .next (s.taken l fun u => u.wdraw l tag p) := by
  have hc : exec (.wdraw l tag p) s = .next (s.request l tag 39 State.wdraw p) := rfl
  rw [hc, request_of_quiet s l tag 39 State.wdraw p hq]
  refine congrArg Host.Outcome.next (event_congr ?_)
  simp only [State.take, turnedAway_wdraw _ l ht]

/-! ### What WDRAW does (R176) -/

theorem wdraw_of_payload (s : State) (l : LinkId) (tag : Byte) {p : List Byte} (h : p ≠ []) :
    s.wdraw l tag p = s.refuse l tag .badLength :=
  if_pos h

theorem wdraw_of_waiting {s : State} {l : LinkId} {t : Byte} {op : WaitOp} (tag : Byte)
    (h : (s.link l).busy = some (.waiting t op)) :
    s.wdraw l tag [] = ((s.reply l t .withdrawn []).setBusy l none).reply l tag .ok [] := by
  simp [State.wdraw, h]

theorem wdraw_of_not_waiting {s : State} {l : LinkId} (tag : Byte)
    (h : ∀ t op, (s.link l).busy ≠ some (.waiting t op)) : s.wdraw l tag [] = s.refuse l tag .wrongState := by
  rw [State.wdraw, if_neg (not_not.2 rfl)]
  split
  next t op hb => exact absurd hb (h t op)
  next => rfl

theorem idleAssembler_busy (s : State) (l m : LinkId) : ((s.idleAssembler l).link m).busy = (s.link m).busy := by
  rw [idleAssembler_link]
  split <;> rfl

/-- The request in progress of one link is set, and nothing else of any link changes. -/
theorem setBusy_link (s : State) (l m : LinkId) (x : Option InProgress) :
    (s.setBusy l x).link m = if m = l then { s.link m with busy := x } else s.link m := by
  by_cases h : m = l
  · subst h
    rw [if_pos rfl, State.setBusy, modLink_link_same]
  · rw [if_neg h, State.setBusy, modLink_link_ne _ _ h]

theorem setBusy_outputsFollow {s : State} (l : LinkId) (x : Option InProgress) (h : s.outputsFollow) :
    (s.setBusy l x).outputsFollow := by
  refine outputsFollow_congr s _ h rfl rfl fun m => ?_
  rw [setBusy_link]
  split <;> exact ⟨rfl, rfl, rfl⟩

theorem reply_outputsFollow {s : State} (l : LinkId) (tag : Byte) (st : Status) (p : List Byte)
    (h : s.outputsFollow) : (s.reply l tag st p).outputsFollow :=
  outputsFollow_congr s _ h rfl rfl fun _ => ⟨rfl, rfl, rfl⟩

/-- A withdrawal moves replies and the request in progress alone, so it leaves the outputs in step. -/
theorem withdrawal_outputsFollow {s : State} (l : LinkId) (t tag : Byte) (h : s.outputsFollow) :
    (((s.reply l t .withdrawn []).setBusy l none).reply l tag .ok []).outputsFollow :=
  reply_outputsFollow l tag .ok [] (setBusy_outputsFollow l none (reply_outputsFollow l t .withdrawn [] h))

/-! ### WDRAW's answers -/

section Wdraw

variable {s : State} {l : LinkId} {tag : Byte} {p : List Byte}

theorem wdraw_refuses_tag_zero (p : List Byte) (hq : s.quiet = true) (ho : s.outputsFollow) :
    Refuses (.wdraw l 0 p) s l 0 .badField :=
  congrArg Host.Outcome.next (request_turnedAway s l 0 39 State.wdraw p .badField hq ho (turnedAway_of_tag_zero s l 39))

/-- Where the act of WDRAW refuses, so does the command. -/
theorem wdraw_refuses_of_act {st : Status} (hq : s.quiet = true) (ho : s.outputsFollow) (ht : tag ≠ 0)
    (ha : (s.idleAssembler l).wdraw l tag p = (s.idleAssembler l).refuse l tag st) :
    Refuses (.wdraw l tag p) s l tag st := by
  rw [Refuses, exec_wdraw_of_quiet l p hq ht, ← taken_reply s l tag st [] ho]
  exact congrArg Host.Outcome.next (event_congr ha)

/-- The wait ends WITHDRAWN, then WDRAW's own OK, and the event moves nothing else. -/
theorem exec_wdraw_of_waiting {t : Byte} {op : WaitOp} (hq : s.quiet = true) (ho : s.outputsFollow) (ht : tag ≠ 0)
    (hb : (s.link l).busy = some (.waiting t op)) :
    exec (.wdraw l tag []) s =
      .next ((((s.idleAssembler l).reply l t .withdrawn []).setBusy l none).reply l tag .ok []) := by
  have ha := wdraw_of_waiting tag ((idleAssembler_busy s l l).trans hb)
  have hout := withdrawal_outputsFollow l t tag (idleAssembler_outputsFollow s l ho)
  rw [exec_wdraw_of_quiet l [] hq ht, State.taken, event_eq_self _ s (ha ▸ hout) (by rw [ha]; rfl), ha]

end Wdraw

end Sys2Proof.Machine
end

section
/-! The end of a wait with its operation, or at WDRAW. -/

namespace Sys2Proof.Machine

/-- Settles O37: the two cases of `State.endWait`, and the four answers of WDRAW. -/
theorem waitsEndAndAreWithdrawn : Obligations.WaitsEndAndAreWithdrawn := by
  refine ⟨fun s op st p => ⟨fun tag => endWait_of_waiting st p, endWait_of_not_waiting st p⟩,
    fun s l tag p hq ho => ⟨?tagZero, ?payload, ?taken⟩⟩
  case tagZero =>
    rintro rfl
    exact wdraw_refuses_tag_zero p hq ho
  case payload => exact fun ht hp => wdraw_refuses_of_act hq ho ht (wdraw_of_payload _ l tag hp)
  case taken =>
    rintro ht rfl
    refine ⟨fun t op hb => exec_wdraw_of_waiting hq ho ht hb, fun hb => ?_⟩
    refine wdraw_refuses_of_act hq ho ht (wdraw_of_not_waiting tag fun t op => ?_)
    rw [idleAssembler_busy]
    exact hb t op

end Sys2Proof.Machine
end

section
/-! SUPPORT. An act that changes the fields of one link alone and replies: the attention output of that link follows,
and nothing else moves (R182). -/

namespace Sys2Proof.Machine

/-- Where READY is in step and no slot has come free, all that ends an event is the attention outputs. -/
theorem event_eq_driveAttention (f : State → State) (s : State) (hready : (f s).queue.ready = (f s).readyCondition)
    (hfree : (f s).freeSlots = s.freeSlots) : event f s = (f s).driveAttention := by
  have hroom : (f s).raiseRoom s.freeSlots = f s := if_neg (by omega)
  have hdrive : (f s).driveReady = f s := if_pos hready.symm
  rw [event, hroom, hdrive]

/-- After a change of one link, the outputs having been in step, the attention output of that link alone moves. -/
theorem driveAttention_modLink (s : State) (l : LinkId) (f : Link → Link)
    (h : ∀ m, (s.link m).attn = (s.link m).attention) :
    (s.modLink l f).driveAttention = s.modLink l fun k => { f k with attn := (f k).attention } := by
  refine congrArg s.setLinks (PerLink.ext_get _ _ fun m => (driveAttention_link (s.modLink l f) m).trans ?_)
  by_cases hm : m = l
  · subst hm
    rw [modLink_link_same, PerLink.get_set_same]
  · rw [modLink_link_ne s f hm, PerLink.get_set_ne _ _ hm, ← h m]
    rfl

theorem driveAttention_reply (s : State) (l : LinkId) (tag : Byte) (st : Status) (p : List Byte) :
    (s.reply l tag st p).driveAttention = s.driveAttention.reply l tag st p := rfl

theorem modLink_idleAssembler (s : State) (l : LinkId) (f : Link → Link) :
    (s.idleAssembler l).modLink l f = s.modLink l fun k => f { k with assembler := .idle } := by
  cases l <;> rfl

/-- What a change of its own link's fields leaves of the link that a request was taken on: the assembler is IDLE, the
attention output follows (R182). -/
def Link.actedOn (f : Link → Link) (k : Link) : Link :=
  { f { k with assembler := .idle } with attn := (f { k with assembler := .idle }).attention }

section LinkAct

variable {c : Instr} {s : State} {l : LinkId} {tag : Byte} {p : List Byte} {act : Act} {f : Link → Link}
  {payload : List Byte}

/-- An act that changes its own link and replies OK is that change, with the attention output of the link in step. -/
theorem exec_of_link_act (ho : s.outputsFollow) (hc : exec c s = .next (s.taken l fun u => act u l tag p))
    (ha : act (s.idleAssembler l) l tag p = ((s.idleAssembler l).modLink l f).reply l tag .ok payload) :
    exec c s = .next ((s.modLink l (Link.actedOn f)).reply l tag .ok payload) := by
  obtain ⟨hready, hattn⟩ := idleAssembler_outputsFollow s l ho
  have he := event_eq_driveAttention (fun u => ((u.idleAssembler l).modLink l f).reply l tag .ok payload) s hready rfl
  rw [hc, State.taken, event_congr (g := fun u => ((u.idleAssembler l).modLink l f).reply l tag .ok payload) ha, he,
    driveAttention_reply, driveAttention_modLink _ l f hattn, modLink_idleAssembler]
  rfl

/-- The table of checks of an act that checks the payload's length, then a field, then changes its own link. -/
theorem checked_of_link_act {badLength badField : Prop} [Decidable badLength] [Decidable badField]
    (h : s.listens l tag) (hc : exec c s = .next (s.taken l fun u => act u l tag p))
    (ha : act (s.idleAssembler l) l tag p =
      if badLength then (s.idleAssembler l).refuse l tag .badLength
      else if badField then (s.idleAssembler l).refuse l tag .badField
      else ((s.idleAssembler l).modLink l f).reply l tag .ok payload) :
    Checked c s l tag [(badLength, .badLength), (badField, .badField)]
      (exec c s = .next ((s.modLink l (Link.actedOn f)).reply l tag .ok payload)) := by
  refine ⟨fun hlen => refuses_of_act h hc (ha.trans (if_pos hlen)), fun hlen => ?_⟩
  rw [if_neg hlen] at ha
  refine ⟨fun hfield => refuses_of_act h hc (ha.trans (if_pos hfield)), fun hfield => ?_⟩
  exact exec_of_link_act h.2 hc (ha.trans (if_neg hfield))

end LinkAct

/-- The numbers from 34 on are permitted on every link (R177). -/
theorem permitted_of_le {n : Nat} (l : LinkId) (h : 34 ≤ n) : permitted n l = true := by
  cases l
  case image => simp [permitted, h]
  case motion => simp [permitted, h]
  case service => exact decide_eq_true (by omega)

theorem idleAssembler_flags (s : State) (l m : LinkId) : ((s.idleAssembler l).link m).flags = (s.link m).flags := by
  rw [idleAssembler_link]
  split <;> rfl

theorem idleAssembler_mask (s : State) (l m : LinkId) : ((s.idleAssembler l).link m).mask = (s.link m).mask := by
  rw [idleAssembler_link]
  split <;> rfl

end Sys2Proof.Machine
end

section
/-! SUPPORT. What EVCLR and EVMASK do, check by check, and the table of checks of EVRD, EVCLR and EVMASK. -/

namespace Sys2Proof.Machine

/-- The flag word at the start of a payload (R180). -/
def payloadWord (p : List Byte) : FlagWord := BitVec.ofNat 16 (wordAt p 0)

theorem flagWord_eq_payloadWord (hi lo : Byte) : flagWord hi lo = payloadWord [hi, lo] := by
  rw [flagWord, u16_eq_wordAt, payloadWord]

theorem namesNoFlag_iff (l : LinkId) (w : FlagWord) : namesNoFlag l w = true ↔ w &&& ~~~flagsOf l ≠ 0 := bne_iff_ne

/-! ### The acts (R184, R185) -/

theorem evclr_eq (s : State) (l : LinkId) (tag : Byte) (p : List Byte) :
    s.evclr l tag p =
      if p.length ≠ 2 then s.refuse l tag .badLength
      else if payloadWord p &&& ~~~flagsOf l ≠ 0 then s.refuse l tag .badField
      else (s.modLink l fun k => { k with flags := k.flags &&& ~~~payloadWord p }).reply l tag .ok
        (flagBytes ((s.link l).flags &&& ~~~payloadWord p)) := by
  by_cases h : p.length = 2
  · obtain ⟨hi, lo, rfl⟩ := List.length_eq_two.1 h
    rw [if_neg (not_not.2 h)]
    simp only [State.evclr, flagWord_eq_payloadWord, namesNoFlag_iff, modLink_link_same]
  · rw [if_pos h, State.evclr]
    rintro hi lo rfl
    exact h rfl

theorem evmask_eq (s : State) (l : LinkId) (tag : Byte) (p : List Byte) :
    s.evmask l tag p =
      if p.length ≠ 2 then s.refuse l tag .badLength
      else if payloadWord p &&& ~~~flagsOf l ≠ 0 then s.refuse l tag .badField
      else (s.modLink l fun k => { k with mask := payloadWord p }).reply l tag .ok (flagBytes (s.link l).flags) := by
  by_cases h : p.length = 2
  · obtain ⟨hi, lo, rfl⟩ := List.length_eq_two.1 h
    rw [if_neg (not_not.2 h)]
    simp only [State.evmask, flagWord_eq_payloadWord, namesNoFlag_iff]
  · rw [if_pos h, State.evmask]
    rintro hi lo rfl
    exact h rfl

/-! ### The tables of checks (R183, R184, R185) -/

section Tables

variable {s : State} {l : LinkId} {tag : Byte}

theorem evrd_checked (p : List Byte) (h : s.listens l tag) :
    Checked (.evrd l tag p) s l tag [(p ≠ [], .badLength)]
      (exec (.evrd l tag p) s =
        .next (s.answers l tag .ok (flagBytes (s.link l).flags ++ flagBytes (s.link l).mask))) := by
  have hc := exec_of_listens (c := .evrd l tag p) (act := State.evrd) h rfl rfl (permitted_of_le l (by decide))
  refine ⟨fun hlen => refuses_of_act h hc (if_pos hlen), fun hlen => ?_⟩
  have ha : (s.idleAssembler l).evrd l tag p =
      (s.idleAssembler l).reply l tag .ok (flagBytes (s.link l).flags ++ flagBytes (s.link l).mask) := by
    rw [State.evrd, if_neg hlen, idleAssembler_flags, idleAssembler_mask]
  exact acceptsPlain_of_act (effect := id) h hc ha (.of_eq rfl rfl rfl rfl rfl rfl)

theorem evclr_checked (p : List Byte) (h : s.listens l tag) :
    Checked (.evclr l tag p) s l tag
      [(p.length ≠ 2, .badLength), (payloadWord p &&& ~~~flagsOf l ≠ 0, .badField)]
      (exec (.evclr l tag p) s =
        .next ((s.modLink l (Link.actedOn fun k => { k with flags := k.flags &&& ~~~payloadWord p })).reply l tag .ok
          (flagBytes ((s.link l).flags &&& ~~~payloadWord p)))) := by
  have hc := exec_of_listens (c := .evclr l tag p) (act := State.evclr) h rfl rfl (permitted_of_le l (by decide))
  exact checked_of_link_act h hc (by rw [evclr_eq, idleAssembler_flags])

theorem evmask_checked (p : List Byte) (h : s.listens l tag) :
    Checked (.evmask l tag p) s l tag
      [(p.length ≠ 2, .badLength), (payloadWord p &&& ~~~flagsOf l ≠ 0, .badField)]
      (exec (.evmask l tag p) s =
        .next ((s.modLink l (Link.actedOn fun k => { k with mask := payloadWord p })).reply l tag .ok
          (flagBytes (s.link l).flags))) := by
  have hc := exec_of_listens (c := .evmask l tag p) (act := State.evmask) h rfl rfl (permitted_of_le l (by decide))
  exact checked_of_link_act h hc (by rw [evmask_eq, idleAssembler_flags])

end Tables

end Sys2Proof.Machine
end

section
/-! EVRD, EVCLR and EVMASK act on the link they arrive on. -/

namespace Sys2Proof.Machine

/-- Settles O7: each of the three requests by its own table of checks. -/
theorem eventRequestsActOnTheirLink : Obligations.EventRequestsActOnTheirLink :=
  fun _ _ _ p h => ⟨evrd_checked p h, evclr_checked p h, evmask_checked p h⟩

end Sys2Proof.Machine
end

section
/-! SUPPORT. What one step can do: a chain of events, each with an effect of its own, or a restart. -/

namespace Sys2Proof.Machine

/-- The effects that one event can have. -/
inductive Effect : (State → State) → Prop where
  | lineTick : Effect State.lineTick
  | autoTrigger : Effect State.autoTrigger
  | takePacket (l tag n p) : Effect (·.takePacket l tag n p)
  | badCheck (l) : Effect (·.badCheck l)
  | discardPacket (l) : Effect (·.discardPacket l)
  | packetByte (l b) : Effect (·.packetByte l b)
  | inactivity (l) : Effect (·.inactivity l)
  | encoderEdge (a b) : Effect (·.encoderEdge a b)
  | pdetEdge : Effect State.pdetEdge
  | warmExpiry (h) : Effect (·.warmExpiry h)
  | settleExpiry (h) : Effect (·.settleExpiry h)
  | retryExpiry (h) : Effect (·.retryExpiry h)
  | slewExpiry (h) : Effect (·.slewExpiry h)
  | identifyAnswer (h i n t) : Effect (·.identifyAnswer h i n t)
  | identifyTimeout (h) : Effect (·.identifyTimeout h)
  | loadReply (h n st t reports) : Effect (·.loadReply h n st t reports)
  | loadTimeout (h) : Effect (·.loadTimeout h)
  | fireComplete (h n) : Effect (·.fireComplete h n)
  | loadSend (h) : Effect (·.loadSend h)
  | grant : Effect State.grant
  | readDone : Effect State.readDone
  | writeComplete : Effect State.writeComplete

/-- The check of a packet is the taking of it or its refusal, by its bytes alone (R173). -/
theorem Effect.checkPacket (l : LinkId) (bytes : List Byte) : Effect (·.checkPacket l bytes) := by
  rcases bytes with _ | ⟨tag, _ | ⟨hi, _ | ⟨lo, _ | ⟨number, rest⟩⟩⟩⟩
  case cons.cons.cons.cons =>
    by_cases h : goodCheck (tag :: hi :: lo :: number :: rest) = true
    · simpa only [State.checkPacket, if_pos h] using Effect.takePacket l tag number.toNat rest.dropLast
    · simpa only [State.checkPacket, if_neg h] using Effect.badCheck l
  all_goals exact Effect.badCheck l

/-- A state that events and the claiming of packets lead to. -/
inductive Reaches (s : State) : State → Prop where
  | refl : Reaches s s
  | idle {t} (l : LinkId) : Reaches s t → Reaches s (t.idleAssembler l)
  | event {t f} : Reaches s t → Effect f → Reaches s (event f t)

namespace Reaches

variable {s t : State}

theorem settleTick (h : Reaches s t) : Reaches s t.settleTick := by
  unfold State.settleTick
  split
  · exact h.event .lineTick
  · exact h

theorem settleAuto (h : Reaches s t) : Reaches s t.settleAuto := by
  unfold State.settleAuto
  split
  · exact h.event .autoTrigger
  · exact h

theorem settleLink (l : LinkId) (h : Reaches s t) : Reaches s (t.settleLink l) := by
  unfold State.settleLink
  split
  next => exact h
  next bytes _ =>
    split
    · exact h.event (.discardPacket l)
    · exact h
  next bytes _ => exact h.event (.checkPacket l bytes)

theorem settle (h : Reaches s t) : Reaches s t.settle :=
  (((h.settleTick.settleAuto).settleLink .image).settleLink .motion).settleLink .service

theorem claim (l : LinkId) (mine : Assembler → Bool) (h : Reaches s t) : Reaches s (t.claim l mine) := by
  unfold State.claim
  split
  · exact h.idle l
  · exact h

theorem after {f : State → State} (hf : Effect f) (h : Reaches s t) : Reaches s (t.after f) := h.settle.event hf

/-- A request command is a claim of its packet, then the taking of it. -/
theorem request (l : LinkId) (tag : Byte) (n : Nat) (p : List Byte) :
    Reaches s (s.request l tag n (actOf n) p) :=
  (refl.claim l _).after (.takePacket l tag n p)

end Reaches

/-- A command is a chain of events, or it is POWER_ON. -/
theorem exec_reaches (c : Instr) (s t : State) (h : exec c s = .next t) :
    Reaches s t ∨ ∃ a b, t = s.restart a b := by
  cases c
  case powerOn a b => exact .inr ⟨a, b, (Host.Outcome.next.inj h).symm⟩
  all_goals
    left
    obtain rfl := Host.Outcome.next.inj h
  case badCheck l => exact (Reaches.refl.claim l _).after (.badCheck l)
  case unknown l tag n p => exact (Reaches.refl.claim l _).after (.takePacket l tag n.toNat p)
  case packetLengthDiscard l => exact (Reaches.refl.claim l _).after (.discardPacket l)
  case packetInactivityTimeout l => exact Reaches.refl.after (.inactivity l)
  case encoderEdge a b => exact Reaches.refl.after (.encoderEdge a b)
  case lineTick =>
    split
    · exact Reaches.refl.event .lineTick
    · exact Reaches.refl.settle
  case automaticTrigger =>
    split
    · exact Reaches.refl.settleTick.event .autoTrigger
    · exact Reaches.refl.settle
  case pdetRisingEdge => exact Reaches.refl.after .pdetEdge
  case warmTimerExpiry g => exact Reaches.refl.after (.warmExpiry g)
  case settleTimerExpiry g => exact Reaches.refl.after (.settleExpiry g)
  case retryTimerExpiry g => exact Reaches.refl.after (.retryExpiry g)
  case slewTimerExpiry g => exact Reaches.refl.after (.slewExpiry g)
  case identifyAnswer g c u => exact Reaches.refl.after (.identifyAnswer g c.identify c.nozzles u)
  case identifyTimeout g => exact Reaches.refl.after (.identifyTimeout g)
  case loadReply g n st u reports => exact Reaches.refl.after (.loadReply g n st u reports)
  case loadReplyTimeout g => exact Reaches.refl.after (.loadTimeout g)
  case fireComplete g n => exact Reaches.refl.after (.fireComplete g n)
  case loadSend g => exact Reaches.refl.after (.loadSend g)
  case rowStoreGrant => exact Reaches.refl.after .grant
  case rowStoreReadDone => exact Reaches.refl.after .readDone
  case rowputWriteComplete => exact Reaches.refl.after .writeComplete
  case packetByte l b => exact Reaches.refl.after (.packetByte l b)
  all_goals exact Reaches.request _ _ _ _

/-- A property that events, the claiming of a packet and POWER_ON keep, and that does not read the waiting commands, is
kept by every step. -/
theorem step_keeps (P : State → Prop) (hpending : ∀ s x, P s → P (s.setPending x))
    (hidle : ∀ s l, P s → P (s.idleAssembler l)) (hevent : ∀ f s, Effect f → P s → P (event f s))
    (hrestart : ∀ s a b, P s → P (s.restart a b)) {s t : State} (h : P s) (hs : step s = .next t) : P t := by
  have reach : ∀ {u v : State}, P u → Reaches u v → P v := by
    intro u v hu hv
    induction hv with
    | refl => exact hu
    | idle l _ ih => exact hidle _ l ih
    | event _ hf ih => exact hevent _ _ hf ih
  unfold step at hs
  split at hs
  next =>
    obtain rfl := Host.Outcome.next.inj hs
    exact reach h Reaches.refl.settle
  next c cs _ =>
    rcases exec_reaches c _ t hs with hr | ⟨a, b, rfl⟩
    · exact reach (hpending s cs h) hr
    · exact hrestart _ a b (hpending s cs h)

end Sys2Proof.Machine
end

section
/-! The outputs stay in step: every event ends with them in step, and POWER_ON leaves them so. -/

namespace Sys2Proof.Machine

theorem restart_outputsFollow (s : State) (a b : Bool) : (s.restart a b).outputsFollow := by
  refine ⟨rfl, fun l => ?_⟩
  rw [restart_link]
  cases l <;> decide

/-- Settles O11: READY and the attention outputs follow after every event, and POWER_ON starts them in step. -/
theorem outputsStayInStep : Obligations.OutputsStayInStep := by
  intro s t hs ht
  refine step_keeps State.outputsFollow (fun s _ h => ?pending) (fun s l h => idleAssembler_outputsFollow s l h)
    (fun f s _ _ => event_outputsFollow f s) (fun s a b _ => restart_outputsFollow s a b) hs ht
  exact outputsFollow_congr s _ h rfl rfl fun _ => ⟨rfl, rfl, rfl⟩

end Sys2Proof.Machine
end

section
/-! SUPPORT. The frame of the invariants: what the nozzle table's size, the Position Unit's agreement, the order of the
Page Queue, the Row Ring and the Pattern Library read stays as it was. -/

namespace Sys2Proof.Machine

/-- What the queue's order reads of a page. -/
def Page.tag (p : Page) : Nat × PageState := (p.id, p.state)

/-- Nothing that is raised and undelivered has moved, but that a link's assembler may have become IDLE (log 3, 4, 5). -/
structure SameRaised (s t : State) : Prop where
  tick : t.position.tickRaised = s.position.tickRaised
  auto : t.position.autoRaised = s.position.autoRaised
  assembler : ∀ l, (t.link l).assembler = (s.link l).assembler ∨ (t.link l).assembler = .idle

theorem SameRaised.of_eq {s t : State} (hposition : t.position = s.position) (hlinks : t.links = s.links) :
    SameRaised s t :=
  ⟨by rw [hposition], by rw [hposition], fun l => .inl (by rw [State.link, State.link, hlinks])⟩

theorem SameRaised.trans {s t u : State} (h : SameRaised s t) (k : SameRaised t u) : SameRaised s u :=
  ⟨k.tick.trans h.tick, k.auto.trans h.auto, fun l => (k.assembler l).elim (fun e => e ▸ h.assembler l) .inr⟩

/-- Nothing that an invariant of a block reads has moved, but that the nozzle table and the Position Unit may move within
their invariants. -/
structure Frame (s t : State) : Prop where
  table : s.tableWhole → t.tableWhole
  position : s.position.agrees → t.position.agrees
  tags : t.queue.pages.map Page.tag = s.queue.pages.map Page.tag
  rows : t.ring.rows = s.ring.rows
  directory : t.library.directory = s.library.directory
  memory : t.library.memory = s.library.memory
  raised : SameRaised s t

/-! ### Lengths of the nozzle lists -/

theorem writeFrom_length (e : Edit) (h : LaneId) (n : Nat) (xs : List Nozzle) :
    (e.writeFrom h n xs).length = xs.length := by
  induction xs generalizing n with
  | nil => rfl
  | cons x xs ih => simp [Edit.writeFrom, ih]

theorem writeEdits_length (es : List Edit) (h : LaneId) (xs : List Nozzle) :
    (writeEdits es h xs).length = xs.length := by
  induction es generalizing xs with
  | nil => rfl
  | cons e es ih => exact (ih _).trans (writeFrom_length e h 0 xs)

theorem viewNozzles_length (s : State) (v : View) (h : LaneId) :
    (s.viewNozzles v h).length = (s.lane h).nozzles.length := by
  unfold State.viewNozzles
  dsimp only
  split
  · simp [writeEdits_length]
  · rfl

theorem finishFrom_length (f : BarFields) (donors : List (Option Nat × Level)) (n : Nat) (xs : List Spot) :
    (finishFrom f donors n xs).length = xs.length := by
  induction xs generalizing n with
  | nil => rfl
  | cons x xs ih => simp [finishFrom, ih]

theorem spotsFrom_length (mode : Handover) (row : Nat) (takesPart : Bool) (column : Nat) (xs : List Nozzle)
    (ps : List Partner) (vs : List Level) :
    (spotsFrom mode row takesPart column xs ps vs).length = min xs.length (min ps.length vs.length) := by
  induction xs generalizing column ps vs with
  | nil => simp [spotsFrom]
  | cons x xs ih =>
    rcases ps with _ | ⟨p, ps⟩
    · simp [spotsFrom]
    · rcases vs with _ | ⟨v, vs⟩
      · simp [spotsFrom]
      · simp only [spotsFrom, List.length_cons, ih]
        omega

theorem partnersOf_length_le (left : Option AssignHead) (own : AssignHead) (right : Option AssignHead) :
    1024 ≤ (partnersOf left own right).length := by
  simp only [partnersOf, List.length_append, List.length_replicate]
  omega

theorem partLevels_length (part : Option PlanePart) (first : Nat) : (partLevels part first).length = 1024 := by
  simp only [partLevels, List.length_append, List.length_take, List.length_replicate]
  omega

/-- A head whose entries are whole is given an accumulator for each of them. -/
theorem headShare_accs_length (f : BarFields) (row first : Nat) (takesPart : Bool) (entries : List Nozzle)
    (left right : Option AssignHead) (own : AssignHead) (part : Option PlanePart) (h : entries.length = 1024) :
    (headShare f row first takesPart entries (partnersOf left own right) (partLevels part first)).accs.length =
      1024 := by
  have hp := partnersOf_length_le left own right
  simp only [headShare, List.length_map, finishFrom_length, spotsFrom_length, partLevels_length, h]
  omega

theorem shares_accs_length (f : BarFields) (row : Nat) (part : Option PlanePart) (left : Option AssignHead)
    (heads : List AssignHead) (hh : ∀ h ∈ heads, h.entries.length = 1024) :
    ∀ x ∈ shares f row part left heads, x.2.accs.length = 1024 := by
  induction heads generalizing left with
  | nil => simp [shares]
  | cons h hs ih =>
    simp only [shares, List.forall_mem_cons]
    exact ⟨headShare_accs_length _ _ _ _ _ _ _ _ _ (hh h List.mem_cons_self),
      ih (some h) fun g hg => hh g (List.mem_cons_of_mem h hg)⟩

theorem idleFired_length (limit : Nat) (m : FireMode) (xs : List Nozzle) (ds : List Drop) :
    (idleFired limit m xs ds).length = xs.length := by
  induction xs generalizing ds with
  | nil => cases ds <;> simp [idleFired, idleQuiet]
  | cons x xs ih => cases ds <;> simp [idleFired, idleQuiet, ih]

theorem idleAt_length (ln : Lane) (kind : RowKind) (limit : Nat) (o : HeadOutcome) :
    (ln.idleAt kind limit o).length = ln.nozzles.length := by
  unfold Lane.idleAt
  repeat' split
  · rfl
  · exact idleFired_length _ _ _ _
  · exact List.length_map _

theorem deliver_tableWhole {s : State} {blank : Bool} {out : List (AssignHead × HeadShare)}
    (hout : ∀ x ∈ out, x.2.accs.length = 1024) (h : s.tableWhole) : (s.deliver blank out).tableWhole := by
  induction out generalizing s with
  | nil => exact h
  | cons x out ih =>
    obtain ⟨hx, hrest⟩ := List.forall_mem_cons.1 hout
    refine ih hrest ?_
    by_cases hp : x.1.takesPart = true
    · simp only [hp, if_true]
      intro g
      by_cases hg : g = x.1.lane
      · have hw := h x.1.lane
        simp [hg, Lane.receive, setAccs, hx, hw]
      · rw [modLane_lane_ne _ _ hg]
        exact h g
    · simp only [hp]
      exact h

/-- The deliveries of an assignment move the lanes alone. -/
theorem deliver_eq (s : State) (blank : Bool) (out : List (AssignHead × HeadShare)) :
    s.deliver blank out = s.setLanes (s.deliver blank out).lanes := by
  induction out generalizing s with
  | nil => rfl
  | cons x out ih =>
    refine (ih _).trans ?_
    simp only [State.deliver]
    split <;> rfl

@[simp] theorem retry_nozzles (ln : Lane) : ln.retry.nozzles = ln.nozzles := by
  unfold Lane.retry
  split <;> rfl

@[simp] theorem enterDrive_nozzles (ln : Lane) : ln.enterDrive.nozzles = ln.nozzles := by
  unfold Lane.enterDrive
  split <;> rfl

@[simp] theorem countStatus_nozzles (ln : Lane) (st : LoadStatus) : (ln.countStatus st).nozzles = ln.nozzles := by
  unfold Lane.countStatus
  split
  · rfl
  · cases st <;> rfl

@[simp] theorem lane_dropPage_nozzles (id : Nat) (ln : Lane) : (ln.dropPage id).nozzles = ln.nozzles := by
  unfold Lane.dropPage
  repeat' split
  all_goals rfl

@[simp] theorem driveActive_nozzles (ln : Lane) (target step : Nat) (interval : SlewInterval) :
    (ln.driveActive target step interval).nozzles = ln.nozzles := by
  unfold Lane.driveActive
  dsimp only
  repeat' split
  all_goals rfl

@[simp] theorem setDrive_nozzles (ln : Lane) (target step : Nat) (interval : SlewInterval) (limit : Nat) :
    (ln.setDrive target step interval limit).nozzles = ln.nozzles := by
  unfold Lane.setDrive
  split
  · exact driveActive_nozzles ln target step interval
  · rfl

@[simp] theorem countAbandoned_tag (p : Page) (ld : Option HeadLoad) : (p.countAbandoned ld).tag = p.tag := by
  unfold Page.countAbandoned
  repeat' split
  all_goals rfl

namespace Frame

variable {s t : State}

theorem refl (s : State) : Frame s s := ⟨id, id, rfl, rfl, rfl, rfl, .of_eq rfl rfl⟩

theorem trans {u : State} (h : Frame s t) (k : Frame t u) : Frame s u :=
  ⟨k.table ∘ h.table, k.position ∘ h.position, k.tags.trans h.tags, k.rows.trans h.rows,
    k.directory.trans h.directory, k.memory.trans h.memory, h.raised.trans k.raised⟩

theorem ite {u : State} {c : Prop} [Decidable c] (h : c → Frame s t) (k : ¬c → Frame s u) :
    Frame s (if c then t else u) := by
  by_cases hc : c
  · rw [if_pos hc]; exact h hc
  · rw [if_neg hc]; exact k hc

theorem foldl {α : Type} {f : State → α → State} (hf : ∀ {t x}, Frame s t → Frame s (f t x)) (xs : List α)
    (k : Frame s t) : Frame s (xs.foldl f t) := by
  induction xs generalizing t with
  | nil => exact k
  | cons x xs ih => exact ih (hf k)

/-! ### Updates of one block -/

theorem setBars {x} (k : Frame s t) : Frame s (t.setBars x) := k.trans ⟨id, id, rfl, rfl, rfl, rfl, .of_eq rfl rfl⟩
theorem modBar {b f} (k : Frame s t) : Frame s (t.modBar b f) := k.setBars
theorem setLists {x} (k : Frame s t) : Frame s (t.setLists x) := k.trans ⟨id, id, rfl, rfl, rfl, rfl, .of_eq rfl rfl⟩

theorem modLink {l : LinkId} {f : Link → Link}
    (hf : (f (t.link l)).assembler = (t.link l).assembler ∨ (f (t.link l)).assembler = .idle) (k : Frame s t) :
    Frame s (t.modLink l f) := by
  refine k.trans ⟨id, id, rfl, rfl, rfl, rfl, rfl, rfl, fun m => ?_⟩
  by_cases hm : m = l
  · subst hm
    rw [modLink_link_same]
    exact hf
  · exact .inl (by rw [modLink_link_ne _ _ hm])

theorem idleAssembler {l} (k : Frame s t) : Frame s (t.idleAssembler l) := .modLink (.inr rfl) k
theorem raise {l f} (k : Frame s t) : Frame s (t.raise l f) := .modLink (.inl rfl) k
theorem setBusy {l x} (k : Frame s t) : Frame s (t.setBusy l x) := .modLink (.inl rfl) k
theorem setFresh {x} (k : Frame s t) : Frame s (t.setFresh x) := k.trans ⟨id, id, rfl, rfl, rfl, rfl, .of_eq rfl rfl⟩
theorem draw (k : Frame s t) : Frame s t.draw := k.setFresh
theorem setSent {x} (k : Frame s t) : Frame s (t.setSent x) := k.trans ⟨id, id, rfl, rfl, rfl, rfl, .of_eq rfl rfl⟩
theorem send {m} (k : Frame s t) : Frame s (t.send m) := k.setSent
theorem reply {l tag st p} (k : Frame s t) : Frame s (t.reply l tag st p) := k.send
theorem refuse {l tag st} (k : Frame s t) : Frame s (t.refuse l tag st) := k.reply

theorem setLanes {x : PerLane Lane} (hx : ∀ h, (x.get h).nozzles.length = (t.lane h).nozzles.length)
    (k : Frame s t) : Frame s (t.setLanes x) :=
  k.trans ⟨fun h g => (hx g).trans (h g), id, rfl, rfl, rfl, rfl, .of_eq rfl rfl⟩

theorem modLane {h : LaneId} {f : Lane → Lane} (k : Frame s t)
    (hf : (f (t.lane h)).nozzles.length = (t.lane h).nozzles.length := by simp) :
    Frame s (t.modLane h f) := by
  refine k.setLanes fun g => ?_
  rw [PerLane.get_set]
  split
  next hg => rw [hg, hf]
  next => rfl

theorem setPosition {x : Position} (hx : t.position.agrees → x.agrees) (ht : x.tickRaised = t.position.tickRaised)
    (ha : x.autoRaised = t.position.autoRaised) (k : Frame s t) : Frame s (t.setPosition x) :=
  k.trans ⟨id, hx, rfl, rfl, rfl, rfl, ht, ha, fun _ => .inl rfl⟩

/-- A change of pages one by one that leaves ids and states. -/
theorem mapPages {f : Page → Page} (hf : ∀ p, (f p).tag = p.tag) (k : Frame s t) :
    Frame s (t.setPages (t.queue.pages.map f)) := by
  refine k.trans ⟨id, id, ?_, rfl, rfl, rfl, .of_eq rfl rfl⟩
  rw [setPages_pages, List.map_map]
  exact List.map_congr_left fun p _ => hf p

theorem modPage {id : Nat} {f : Page → Page} (hf : ∀ p, (f p).tag = p.tag) (k : Frame s t) :
    Frame s (t.modPage id f) := by
  refine mapPages (fun p => ?_) k
  split
  · exact hf p
  · rfl

theorem setQueue {x : Queue} (hx : x.pages = t.queue.pages) (k : Frame s t) : Frame s (t.setQueue x) :=
  k.trans ⟨id, id, by rw [setQueue_queue, hx], rfl, rfl, rfl, .of_eq rfl rfl⟩

theorem setRing {x : Ring} (hx : x.rows = t.ring.rows) (k : Frame s t) : Frame s (t.setRing x) :=
  k.trans ⟨id, id, rfl, hx, rfl, rfl, .of_eq rfl rfl⟩

theorem setStore {x} (k : Frame s t) : Frame s (t.setStore x) := k.setRing rfl

theorem setLibrary {x : Library} (hd : x.directory = t.library.directory) (hm : x.memory = t.library.memory)
    (k : Frame s t) : Frame s (t.setLibrary x) :=
  k.trans ⟨id, id, rfl, rfl, hd, hm, .of_eq rfl rfl⟩

theorem endWait {op st p} (k : Frame s t) : Frame s (t.endWait op st p) := by
  unfold State.endWait
  split
  · exact .ite (fun _ => k.setBusy.reply) fun _ => k
  · exact k

theorem hold {l tag wait op} (k : Frame s t) : Frame s (t.hold l tag wait op) :=
  .ite (fun _ => k.setBusy) fun _ => k.reply

/-! ### The nozzle table -/

theorem writeTable {es} (k : Frame s t) : Frame s (t.writeTable es) :=
  k.setLanes fun h => by simp [writeEdits_length]

theorem endTransition (k : Frame s t) : Frame s t.endTransition := by
  unfold State.endTransition
  split
  · exact k
  · exact k.writeTable.setLists.setBars.raise.endWait

theorem endTransitionOf {page} (k : Frame s t) : Frame s (t.endTransitionOf page) := by
  unfold State.endTransitionOf
  split
  · exact .ite (fun _ => k.endTransition) fun _ => k
  · exact k

theorem switchBar {b page row} (k : Frame s t) : Frame s (t.switchBar b page row) := by
  unfold State.switchBar
  split
  · exact .ite (fun _ => .ite (fun _ => k.setLists.endTransition) fun _ => k.setLists) fun _ => k
  · exact k

theorem autoMark {h r} (k : Frame s t) : Frame s (t.autoMark h r) :=
  .ite (fun _ => (k.setLists.modLane (List.length_modify _ _ _)).raise) fun _ => k

/-! ### The assignment of a row -/

theorem deliver {blank : Bool} {out : List (AssignHead × HeadShare)}
    (hout : t.tableWhole → ∀ x ∈ out, x.2.accs.length = 1024) (k : Frame s t) : Frame s (t.deliver blank out) := by
  refine k.trans ⟨fun h => deliver_tableWhole (hout h) h, ?_, ?_, ?_, ?_, ?_, ?_⟩ <;> rw [deliver_eq]
  · exact id
  rotate_right
  · exact .of_eq rfl rfl
  all_goals rfl

theorem assignPage {b pl part} (k : Frame s t) : Frame s (t.assignPage b pl part) := by
  refine .ite (fun _ => .modPage (fun _ => rfl) (.modBar (.deliver (fun h => ?_) k)))
    fun _ => .modBar (.deliver (fun h => ?_) k)
  all_goals
    refine shares_accs_length _ _ _ _ _ fun g hg => ?_
    obtain ⟨x, _, rfl⟩ := List.mem_map.1 hg
    exact (viewNozzles_length t _ _).trans (h _)

theorem handTo {page row b} (k : Frame s t) : Frame s (t.handTo page row b) := by
  unfold State.handTo
  split
  · refine .ite (fun _ => ?_) fun _ => k
    split
    · exact k.assignPage
    · exact k
  · exact k

theorem handRow {page row} (k : Frame s t) : Frame s (t.handRow page row) :=
  .foldl handTo _ k

/-! ### Head lanes -/

theorem leaveActive {h dest} (k : Frame s t) : Frame s (t.leaveActive h dest) := by
  unfold State.leaveActive
  exact .modLane (k.mapPages fun p => countAbandoned_tag p _) rfl

theorem raiseFault {h} (k : Frame s t) : Frame s (t.raiseFault h) :=
  .ite (fun _ => k.raise.raise) fun _ => k.raise

theorem headFault {h f} (k : Frame s t) : Frame s (t.headFault h f) := by
  refine .ite (fun _ => ?_) fun _ => k
  refine .endWait (.endWait (.raiseFault (.modLane (.ite (fun _ => k.leaveActive) fun _ => k) ?_)))
  exact congrArg List.length (retry_nozzles _)

theorem checkTemperature {h} (k : Frame s t) : Frame s (t.checkTemperature h) :=
  .ite (fun _ => k.headFault) fun _ => k

theorem sendIdentify {h} (k : Frame s t) : Frame s (t.sendIdentify h) :=
  .ite (fun _ => .send (.modLane k rfl)) fun _ => k

theorem beginProbe {h p} (k : Frame s t) : Frame s (t.beginProbe h p) :=
  .sendIdentify (.modLane k)

theorem scanned {h} (k : Frame s t) : Frame s (t.scanned h) := by
  unfold State.scanned
  split
  · exact .ite (fun _ => .ite (fun _ => k.setBusy) fun _ => k.setBusy.reply) fun _ => k
  · exact k

theorem endPlain {h known present} (k : Frame s t) : Frame s (t.endPlain h known present) :=
  .ite (fun _ => .raise (.modLane k rfl)) fun _ => .modLane k rfl

theorem endRetry {h n} (k : Frame s t) : Frame s (t.endRetry h n) :=
  .ite (fun _ => .raise (.modLane k rfl)) fun _ => .ite (fun _ => .modLane k rfl) fun _ => .modLane k rfl

theorem loseRetry {h} (k : Frame s t) : Frame s (t.loseRetry h) :=
  .raiseFault (.modLane k)

theorem identifyAnswer {h i n u} (k : Frame s t) : Frame s (t.identifyAnswer h i n u) := by
  unfold State.identifyAnswer
  split
  next p _ =>
    refine .scanned ?_
    cases p
    case plain => exact .endPlain (.modLane k rfl)
    case retry => exact .endRetry (.modLane k rfl)
  next => exact k

theorem identifyTimeout {h} (k : Frame s t) : Frame s (t.identifyTimeout h) := by
  unfold State.identifyTimeout
  split
  next p _ _ =>
    refine .scanned ?_
    cases p
    case plain => exact .endPlain (.modLane k rfl)
    case retry => exact .loseRetry (.modLane k rfl)
  next => exact k

theorem warmExpiry {h} (k : Frame s t) : Frame s (t.warmExpiry h) :=
  .ite (fun _ => .endWait (.modLane k (by simp [Lane.enterActive]))) fun _ => k

theorem settleExpiry {h} (k : Frame s t) : Frame s (t.settleExpiry h) := by
  unfold State.settleExpiry
  split
  · exact .modLane k
  · exact .endWait (.raise (.modLane k))
  · exact k

theorem retryExpiry {h} (k : Frame s t) : Frame s (t.retryExpiry h) :=
  .ite (fun _ => .beginProbe (.modLane k)) fun _ => k

theorem slewExpiry {h} (k : Frame s t) : Frame s (t.slewExpiry h) :=
  .ite (fun _ => .modLane k rfl) fun _ => k

theorem grant (k : Frame s t) : Frame s t.grant := by
  refine .ite (fun _ => ?_) fun _ => k
  split
  · exact .setStore (.modLane k rfl)
  · exact .ite (fun _ => k.setStore) fun _ => k

theorem readDone (k : Frame s t) : Frame s t.readDone := by
  unfold State.readDone
  split
  · refine .setStore (.modLane k ?_)
    repeat' split
    all_goals rfl
  · exact k

theorem loadSend {h} (k : Frame s t) : Frame s (t.loadSend h) := by
  unfold State.loadSend
  split
  · exact .ite (fun _ => .send (.modLane k)) fun _ => k
  · exact k

theorem statusFault {h st} (k : Frame s t) : Frame s (t.statusFault h st) := by
  cases st
  case ok => exact k
  case loadCheck => exact .ite (fun _ => k.headFault) fun _ => k
  case driveFault => exact k.headFault

theorem loadReply {h n st u reports} (k : Frame s t) : Frame s (t.loadReply h n st u reports) :=
  .ite (fun _ => .sendIdentify (.statusFault (.modLane (.foldl autoMark _ (.checkTemperature (.modLane k rfl))))))
    fun _ => k

theorem loadTimeout {h} (k : Frame s t) : Frame s (t.loadTimeout h) := by
  unfold State.loadTimeout
  split
  · refine .sendIdentify (.ite (fun _ => .headFault (.modLane k ?_)) fun _ => .modLane k ?_)
    all_goals
      dsimp only
      split <;> rfl
  · exact k

theorem fireComplete {h n} (k : Frame s t) : Frame s (t.fireComplete h n) := by
  unfold State.fireComplete
  split
  · exact .ite (fun _ => .modLane k) fun _ => k
  · exact k

/-! ### Bars -/

theorem abandonPage {id} (k : Frame s t) : Frame s (t.abandonPage id) :=
  .setLanes (fun h => by simp [State.lane]) k.setBars

theorem clearDark {id} (k : Frame s t) : Frame s (t.clearDark id) := k.setBars

theorem modCheck {b id f} (k : Frame s t) : Frame s (t.modCheck b id f) := k.setLibrary rfl rfl

theorem checkDone {r} (k : Frame s t) : Frame s (t.checkDone r) := .endWait k.setFresh.raise

theorem endCheck {b o} (k : Frame s t) : Frame s (t.endCheck b o) := by
  unfold State.endCheck
  split
  · dsimp only
    split
    · exact .ite (fun _ => k.modBar.modCheck.checkDone) fun _ => k.modBar.modCheck
    · exact k.modBar
  · exact k

theorem truncatePlay {b} (k : Frame s t) : Frame s (t.truncatePlay b) := by
  unfold State.truncatePlay
  split
  · exact k
  · exact .ite (fun _ => .endCheck (.modBar (.setLibrary rfl rfl k))) fun _ => .modBar (.setLibrary rfl rfl k)

theorem startCheck {b id} (k : Frame s t) : Frame s (t.startCheck b id) := by
  unfold State.startCheck
  split
  · exact k.modCheck.modBar
  · exact k

theorem beginHeads {b mk} (k : Frame s t) : Frame s (t.beginHeads b mk) :=
  .foldl (fun k => .modLane k) _ k

theorem beginPage {b page row} (k : Frame s t) : Frame s (t.beginPage b page row) :=
  k.truncatePlay.switchBar.modBar.beginHeads.handTo

theorem beginPlain {b next row kind levels} (k : Frame s t) : Frame s (t.beginPlain b next row kind levels) := by
  unfold State.beginPlain
  exact k.beginHeads.modBar

theorem beginLoads {b} (k : Frame s t) : Frame s (t.beginLoads b) := by
  unfold State.beginLoads
  split
  · exact k.beginPage
  · split
    · exact k.beginPlain
    · dsimp only
      split
      · exact k.startCheck.beginPlain
      · exact k.startCheck.beginPlain
    · exact k.beginPlain

theorem countOverspeed {page} (k : Frame s t) : Frame s (t.countOverspeed page) := by
  have h : Frame s ((t.setPosition { t.position with overspeed := satAdd max16 t.position.overspeed 1 }).raise
      .motion .overspeed) := .raise (.setPosition id rfl rfl k)
  cases page
  case none => exact h
  case some id => exact h.modPage fun _ => rfl

theorem tickHead {kind limit page suppressed waiting h} (k : Frame s t) :
    Frame s (t.tickHead kind limit page suppressed waiting h) := by
  have hl : Frame s (t.modLane h (·.tick kind limit (headOutcome suppressed waiting (t.lane h)))) :=
    .modLane k (idleAt_length _ _ _ _)
  unfold State.tickHead
  dsimp only
  split
  · exact hl
  · exact hl.send
  · exact hl.send
  · exact hl.countOverspeed
  · split
    · exact hl.modPage fun _ => rfl
    · exact hl

theorem tickHeads {b kind page suppressed waiting} (k : Frame s t) :
    Frame s (t.tickHeads b kind page suppressed waiting) :=
  .foldl tickHead _ k

theorem settleTallies {pl suppressed} (k : Frame s t) : Frame s (t.settleTallies pl suppressed) :=
  .ite (fun _ => .ite (fun _ => .modPage (fun _ => rfl) k) fun _ => k)
    fun _ => .ite (fun _ => k) fun _ => .modPage (fun _ => rfl) k

theorem lastPass {b gap} (k : Frame s t) : Frame s (t.lastPass b gap) := by
  unfold State.lastPass
  cases gap
  case none => exact k.modBar
  case some n => exact k.modBar.modBar

theorem darkPass {b id} (k : Frame s t) : Frame s (t.darkPass b id) :=
  .ite (fun _ => .modPage (fun _ => rfl) k) fun _ => .raise (.modBar (.modPage (fun _ => rfl) k))

theorem recordLine {b g} (k : Frame s t) : Frame s (t.recordLine b g) := by
  unfold State.recordLine
  split
  · exact k.modCheck
  · exact k

theorem playPattern {b g} (k : Frame s t) : Frame s (t.playPattern b g) := by
  have rest : ∀ {u : State}, Frame s u → Frame s
      (if g.next + 1 < u.patternRows g.name then
        u.modBar b fun x => { x with gapPlay := some { g with next := g.next + 1 } }
      else if g.source = .check then (u.modBar b fun x => { x with gapPlay := none }).endCheck b .whole
        else u.modBar b fun x => { x with gapPlay := none }) := fun h =>
    .ite (fun _ => h.modBar) fun _ => .ite (fun _ => h.modBar.endCheck) fun _ => h.modBar
  exact rest (.ite (fun _ => k.tickHeads.recordLine.modBar) fun _ => k.tickHeads.recordLine)

theorem gapAction {b} (k : Frame s t) : Frame s (t.gapAction b) := by
  unfold State.gapAction
  refine .modBar ?_
  split
  · exact k.playPattern
  · exact k.tickHeads
  · exact k.tickHeads

theorem takePark {b passed h} (k : Frame s t) : Frame s (t.takePark b passed h) := by
  unfold State.takePark
  split
  · exact .ite (fun _ => .modLane k.leaveActive) fun _ => k
  · exact k

theorem takeParks {b passed} (k : Frame s t) : Frame s (t.takeParks b passed) :=
  .foldl takePark _ k

end Frame

end Sys2Proof.Machine
end

section
/-! SUPPORT. The order of the Page Queue (R23, R25): which changes of the page records keep it. -/

namespace Sys2Proof.Machine

/-- A page that has been triggered (R25). -/
def Page.triggered (p : Page) : Prop := p.state = .printing ∨ p.state = .done ∨ p.state = .aborted

/-- The pages triggered stand before those not, and of these the oldest is ARMED and the others are DECLARED. -/
def InTurn (ps : List Page) : Prop :=
  ∃ old waiting, ps = old ++ waiting ∧ (∀ p ∈ old, p.triggered) ∧ (∀ p ∈ waiting.head?, p.state = .armed) ∧
    ∀ p ∈ waiting.tail, p.state = .declared

/-- The pages triggered stand before those not, and none is ARMED. -/
def Unarmed (ps : List Page) : Prop :=
  ∃ old young, ps = old ++ young ∧ (∀ p ∈ old, p.triggered) ∧ ∀ p ∈ young, p.state = .declared

theorem ordered_iff (q : Queue) :
    q.ordered ↔ q.pages.length ≤ 8 ∧ (q.pages.map (·.id)).Nodup ∧ InTurn q.pages := Iff.rfl

theorem Page.triggered.ne_armed {p : Page} (h : p.triggered) : p.state ≠ .armed := by
  rcases h with h | h | h <;> simp [h]

theorem Page.triggered.ne_declared {p : Page} (h : p.triggered) : p.state ≠ .declared := by
  rcases h with h | h | h <;> simp [h]

/-- Either every page has been triggered, or one ARMED page stands between those that have and those that have not. -/
theorem inTurn_iff (ps : List Page) :
    InTurn ps ↔ (∀ p ∈ ps, p.triggered) ∨ ∃ old a young, ps = old ++ a :: young ∧ (∀ p ∈ old, p.triggered) ∧
      a.state = .armed ∧ ∀ p ∈ young, p.state = .declared := by
  constructor
  · rintro ⟨old, waiting, rfl, hold, harmed, hyoung⟩
    cases waiting with
    | nil => exact .inl (by simpa using hold)
    | cons a young => exact .inr ⟨old, a, young, rfl, hold, harmed a rfl, hyoung⟩
  · rintro (h | ⟨old, a, young, rfl, hold, harmed, hyoung⟩)
    · exact ⟨ps, [], by simp, h, by simp, by simp⟩
    · exact ⟨old, a :: young, rfl, hold, by simpa using harmed, hyoung⟩

/-- Arming the oldest DECLARED page puts a queue without an ARMED page in turn (R25). -/
theorem armOldest_inTurn {ps : List Page} (h : Unarmed ps) : InTurn (armOldest ps) := by
  obtain ⟨old, young, rfl, hold, hyoung⟩ := h
  induction old with
  | nil =>
    cases young with
    | nil => exact ⟨[], [], rfl, by simp, by simp, by simp⟩
    | cons y young =>
      obtain ⟨hy, hyoung⟩ := List.forall_mem_cons.1 hyoung
      refine ⟨[], { y with state := .armed } :: young, ?_, by simp, by simp, hyoung⟩
      simp [armOldest, hy]
  | cons p old ih =>
    obtain ⟨hp, hold⟩ := List.forall_mem_cons.1 hold
    obtain ⟨old', waiting, he, hold', hrest⟩ := ih hold
    refine ⟨p :: old', waiting, ?_, List.forall_mem_cons.2 ⟨hp, hold'⟩, hrest⟩
    simp [armOldest, hp.ne_declared, he]

@[simp] theorem armOldest_ids (ps : List Page) : (armOldest ps).map (·.id) = ps.map (·.id) := by
  induction ps with
  | nil => rfl
  | cons p ps ih =>
    unfold armOldest
    split
    · rfl
    · simp [ih]

theorem armOldest_length (ps : List Page) : (armOldest ps).length = ps.length := by
  rw [← List.length_map (·.id), armOldest_ids, List.length_map]

theorem InTurn.armed_unique {ps : List Page} (h : InTurn ps) {p q : Page} (hp : p ∈ ps) (hq : q ∈ ps)
    (ap : p.state = .armed) (aq : q.state = .armed) : p = q := by
  rcases (inTurn_iff ps).1 h with h | ⟨old, a, young, rfl, hold, harmed, hyoung⟩
  · exact absurd ap (h p hp).ne_armed
  · have only : ∀ r ∈ old ++ a :: young, r.state = .armed → r = a := by
      intro r hr ar
      rcases List.mem_append.1 hr with hr | hr
      · exact absurd ar (hold r hr).ne_armed
      · rcases List.mem_cons.1 hr with hr | hr
        · exact hr
        · simp [hyoung r hr] at ar
    exact (only p hp ap).trans (only q hq aq).symm

/-- Taking out pages none of which is ARMED keeps the turn. -/
theorem InTurn.filter {ps : List Page} {keep : Page → Bool} (h : InTurn ps)
    (hk : ∀ p ∈ ps, keep p = false → p.state ≠ .armed) : InTurn (ps.filter keep) := by
  rcases (inTurn_iff ps).1 h with h | ⟨old, a, young, rfl, hold, harmed, hyoung⟩
  · exact (inTurn_iff _).2 (.inl fun p hp => h p (List.mem_of_mem_filter hp))
  · have ha : keep a = true := by
      by_contra hc
      exact hk a (by simp) (by simpa using hc) harmed
    refine (inTurn_iff _).2 (.inr ⟨old.filter keep, a, young.filter keep, by simp [ha], ?_, harmed, ?_⟩)
    · exact fun p hp => hold p (List.mem_of_mem_filter hp)
    · exact fun p hp => hyoung p (List.mem_of_mem_filter hp)

/-- Taking out the ARMED page leaves none ARMED. -/
theorem InTurn.filter_armed {ps : List Page} {keep : Page → Bool} (h : InTurn ps)
    (hk : ∀ p ∈ ps, p.state = .armed → keep p = false) : Unarmed (ps.filter keep) := by
  rcases (inTurn_iff ps).1 h with h | ⟨old, a, young, rfl, hold, harmed, hyoung⟩
  · exact ⟨ps.filter keep, [], by simp, fun p hp => h p (List.mem_of_mem_filter hp), by simp⟩
  · have ha := hk a (by simp) harmed
    refine ⟨old.filter keep, young.filter keep, by simp [ha], ?_, ?_⟩
    · exact fun p hp => hold p (List.mem_of_mem_filter hp)
    · exact fun p hp => hyoung p (List.mem_of_mem_filter hp)

/-- Changes of triggered pages that leave them triggered keep the turn. -/
theorem InTurn.map {ps : List Page} {f : Page → Page} (h : InTurn ps)
    (hf : ∀ p ∈ ps, (f p).state = p.state ∨ p.triggered ∧ (f p).triggered) : InTurn (ps.map f) := by
  have old_keep : ∀ p ∈ ps, p.triggered → (f p).triggered := by
    intro p hp ht
    rcases hf p hp with h | h
    · rw [Page.triggered, h]; exact ht
    · exact h.2
  have state_keep : ∀ p ∈ ps, ¬p.triggered → (f p).state = p.state :=
    fun p hp ht => (hf p hp).resolve_right fun h => ht h.1
  rcases (inTurn_iff ps).1 h with h | ⟨old, a, young, rfl, hold, harmed, hyoung⟩
  · refine (inTurn_iff _).2 (.inl fun q hq => ?_)
    obtain ⟨p, hp, rfl⟩ := List.mem_map.1 hq
    exact old_keep p hp (h p hp)
  · refine (inTurn_iff _).2 (.inr ⟨old.map f, f a, young.map f, by simp, ?_, ?_, ?_⟩)
    · intro q hq
      obtain ⟨p, hp, rfl⟩ := List.mem_map.1 hq
      exact old_keep p (by simp [hp]) (hold p hp)
    · exact (state_keep a (by simp) fun h => h.ne_armed harmed).trans harmed
    · intro q hq
      obtain ⟨p, hp, rfl⟩ := List.mem_map.1 hq
      exact (state_keep p (by simp [hp]) fun h => h.ne_declared (hyoung p hp)).trans (hyoung p hp)

/-- Triggering the ARMED page leaves none ARMED. -/
theorem InTurn.map_armed {ps : List Page} {f : Page → Page} (h : InTurn ps)
    (harm : ∀ p ∈ ps, p.state = .armed → (f p).triggered)
    (hrest : ∀ p ∈ ps, p.state ≠ .armed → (f p).state = p.state) : Unarmed (ps.map f) := by
  have old_keep : ∀ p ∈ ps, p.triggered → (f p).triggered := fun p hp ht => by
    rw [Page.triggered, hrest p hp ht.ne_armed]; exact ht
  rcases (inTurn_iff ps).1 h with h | ⟨old, a, young, rfl, hold, harmed, hyoung⟩
  · refine ⟨ps.map f, [], by simp, fun q hq => ?_, by simp⟩
    obtain ⟨p, hp, rfl⟩ := List.mem_map.1 hq
    exact old_keep p hp (h p hp)
  · refine ⟨(old ++ [a]).map f, young.map f, by simp, fun q hq => ?_, fun q hq => ?_⟩
    · obtain ⟨p, hp, rfl⟩ := List.mem_map.1 hq
      rcases List.mem_append.1 hp with hp | hp
      · exact old_keep p (by simp [hp]) (hold p hp)
      · obtain rfl := List.mem_singleton.1 hp
        exact harm p (by simp) harmed
    · obtain ⟨p, hp, rfl⟩ := List.mem_map.1 hq
      have hd := hyoung p hp
      exact (hrest p (by simp [hp]) (by simp [hd])).trans hd

/-- A new page at the young end: DECLARED behind an ARMED page, else ARMED (R27). -/
theorem InTurn.append {ps : List Page} {p : Page} (h : InTurn ps)
    (hp : p.state = if (ps.find? (·.state == .armed)).isSome then .declared else .armed) : InTurn (ps ++ [p]) := by
  rcases (inTurn_iff ps).1 h with h | ⟨old, a, young, rfl, hold, harmed, hyoung⟩
  · have hnone : ps.find? (·.state == .armed) = none := by
      rw [List.find?_eq_none]
      intro q hq
      simpa using (h q hq).ne_armed
    rw [hnone] at hp
    exact (inTurn_iff _).2 (.inr ⟨ps, p, [], rfl, h, hp, by simp⟩)
  · have hsome : ((old ++ a :: young).find? (·.state == .armed)).isSome = true := by
      rw [List.find?_isSome]
      exact ⟨a, by simp, by simp [harmed]⟩
    rw [hsome] at hp
    refine (inTurn_iff _).2 (.inr ⟨old, a, young ++ [p], by simp, hold, harmed, ?_⟩)
    rw [List.forall_mem_append]
    exact ⟨hyoung, by simpa using hp⟩

/-! ### The queue of a state -/

/-- Every page of an id has been triggered. -/
def State.Triggered (s : State) (id : Nat) : Prop := ∀ p ∈ s.queue.pages, p.id = id → p.triggered

/-- In an ordered queue, a page found stands for its id. -/
theorem eq_of_mem_of_id {q : Queue} (h : q.ordered) {p r : Page} (hp : p ∈ q.pages) (hr : r ∈ q.pages)
    (hid : r.id = p.id) : r = p :=
  List.inj_on_of_nodup_map h.2.1 hr hp hid

theorem triggered_of_mem {s : State} (h : s.queue.ordered) {p : Page} (hp : p ∈ s.queue.pages) (ht : p.triggered) :
    s.Triggered p.id := fun _ hr hid => eq_of_mem_of_id h hp hr hid ▸ ht

/-- The order of a queue reads the ids and states of its pages. -/
theorem ordered_of_tags {q r : Queue} (ht : r.pages.map Page.tag = q.pages.map Page.tag) (h : q.ordered) :
    r.ordered := by
  obtain ⟨hlen, hnodup, old, waiting, hq, hold, harmed, hyoung⟩ := h
  have hids : r.pages.map (·.id) = q.pages.map (·.id) := by
    simpa [List.map_map, Function.comp_def, Page.tag] using congrArg (List.map Prod.fst) ht
  have hstates : r.pages.map (·.state) = q.pages.map (·.state) := by
    simpa [List.map_map, Function.comp_def, Page.tag] using congrArg (List.map Prod.snd) ht
  refine ⟨by simpa using (congrArg List.length hids).trans_le (by simpa using hlen), hids ▸ hnodup, ?_⟩
  rw [hq, List.map_append, List.map_eq_append_iff] at hstates
  obtain ⟨old', waiting', hr, hold', hwaiting'⟩ := hstates
  refine ⟨old', waiting', hr, fun p hp => ?_, fun p hp => ?_, fun p hp => ?_⟩
  · have hmem : p.state ∈ old.map (·.state) := hold' ▸ List.mem_map_of_mem hp
    obtain ⟨p', hp', he⟩ := List.mem_map.1 hmem
    exact he ▸ hold p' hp'
  · have hh := congrArg List.head? hwaiting'
    rw [List.head?_map, List.head?_map, Option.mem_def.1 hp] at hh
    obtain ⟨p', hp', he⟩ := Option.map_eq_some_iff.1 hh.symm
    have he : p'.state = p.state := he
    exact he ▸ harmed p' hp'
  · have ht := congrArg List.tail hwaiting'
    rw [← List.map_tail, ← List.map_tail] at ht
    have hmem : p.state ∈ waiting.tail.map (·.state) := ht ▸ List.mem_map_of_mem hp
    obtain ⟨p', hp', he⟩ := List.mem_map.1 hmem
    exact he ▸ hyoung p' hp'

theorem Frame.triggered {s t : State} {id : Nat} (k : Frame s t) (h : s.Triggered id) : t.Triggered id := by
  intro p hp hid
  have hmem : p.tag ∈ s.queue.pages.map Page.tag := k.tags ▸ List.mem_map_of_mem hp
  obtain ⟨q, hq, he⟩ := List.mem_map.1 hmem
  have hi : q.id = id := (congrArg Prod.fst he).trans hid
  have hs : q.state = p.state := congrArg Prod.snd he
  have ht := h q hq hi
  rwa [Page.triggered, hs] at ht

/-- A triggered page's state moves to another triggered one. -/
theorem ordered_modPage {s : State} {id : Nat} {f : Page → Page} (h : s.queue.ordered) (ht : s.Triggered id)
    (hid : ∀ p, (f p).id = p.id) (hf : ∀ p, (f p).triggered) : (s.modPage id f).queue.ordered := by
  obtain ⟨hlen, hnodup, hturn⟩ := (ordered_iff _).1 h
  refine ⟨by simpa [State.modPage] using hlen, ?_, InTurn.map hturn fun p hp => ?_⟩
  · have hids : (s.modPage id f).queue.pages.map (·.id) = s.queue.pages.map (·.id) := by
      rw [State.modPage, setPages_pages, List.map_map]
      refine List.map_congr_left fun p _ => ?_
      simp only [Function.comp]
      split <;> simp [hid]
    exact hids ▸ hnodup
  · split
    next hp' => exact .inr ⟨ht p hp (by simpa using hp'), hf p⟩
    next => exact .inl rfl

end Sys2Proof.Machine
end

section
/-! SUPPORT. What every effect of an event keeps: the invariants of the blocks. -/

namespace Sys2Proof.Machine

/-- Each invariant of a block that held before holds after. -/
structure Keeps (s t : State) : Prop where
  table : s.tableWhole → t.tableWhole
  position : s.position.agrees → t.position.agrees
  queue : s.queue.ordered → t.queue.ordered
  ring : s.ring.settled → t.ring.settled
  library : s.library.ordered → t.library.ordered
  memory : Memory.wf s.library.memory = true → Memory.wf t.library.memory = true

theorem settled_of_rows {r q : Ring} (hrows : q.rows = r.rows) (h : r.settled) : q.settled := by
  rw [Ring.settled, hrows]
  exact h

theorem library_ordered_of_directory {x y : Library} (hd : y.directory = x.directory) (h : x.ordered) : y.ordered := by
  rw [Library.ordered, hd]
  exact h

theorem Frame.keeps {s t : State} (k : Frame s t) : Keeps s t :=
  ⟨k.table, k.position, ordered_of_tags k.tags, settled_of_rows k.rows, library_ordered_of_directory k.directory,
    fun h => k.memory ▸ h⟩

/-- A release check leaves no row due at the oldest end (R17). -/
theorem settled_releaseRows {r : Ring} {rs : List RowRec} (hrows : r.rows = releaseRows rs) (hlen : rs.length ≤ 2048) :
    r.settled := by
  refine ⟨?_, fun x hx => ?_⟩
  · rw [hrows]
    exact (List.dropWhile_sublist _).length_le.trans hlen
  · rw [hrows, releaseRows] at hx
    have hno := List.head?_dropWhile_not (fun r : RowRec => r.retired && r.writing.isNone) rs
    rw [Option.mem_def.1 hx] at hno
    rintro ⟨hretired, hwriting⟩
    simp [hretired, hwriting] at hno

theorem Keeps.trans {s t u : State} (h : Keeps s t) (k : Keeps t u) : Keeps s u :=
  ⟨k.table ∘ h.table, k.position ∘ h.position, k.queue ∘ h.queue, k.ring ∘ h.ring, k.library ∘ h.library,
    k.memory ∘ h.memory⟩

/-- What ends an event leaves every block's invariant. -/
theorem Keeps.event {s : State} {f : State → State} (k : Keeps s (f s)) : Keeps s (event f s) := by
  refine k.trans ⟨fun h g => ?_, fun h => ?_, ordered_of_tags (by rw [event_pages]), fun h => ?_, fun h => ?_,
    fun h => ?_⟩
  · rw [State.lane, event_lanes]
    exact h g
  · rwa [event_position]
  · rwa [event_ring]
  · rwa [event_library]
  · rwa [event_library]

/-- Each invariant is kept, and nothing that is raised has moved. -/
structure Acts (s t : State) : Prop extends Keeps s t where
  raised : SameRaised s t

theorem Frame.acts {s t : State} (k : Frame s t) : Acts s t := ⟨k.keeps, k.raised⟩

namespace Acts

variable {s t : State}

theorem refl (s : State) : Acts s s := (Frame.refl s).acts

theorem trans {u : State} (h : Acts s t) (k : Acts t u) : Acts s u :=
  ⟨h.toKeeps.trans k.toKeeps, h.raised.trans k.raised⟩

theorem frame {u : State} (f : Frame t u) (k : Acts s t) : Acts s u := k.trans f.acts

theorem ite {u : State} {c : Prop} [Decidable c] (h : c → Acts s t) (k : ¬c → Acts s u) :
    Acts s (if c then t else u) := by
  by_cases hc : c
  · rw [if_pos hc]; exact h hc
  · rw [if_neg hc]; exact k hc

theorem reply {l tag st p} (k : Acts s t) : Acts s (t.reply l tag st p) := k.frame (.reply (.refl t))

theorem refuse {l tag st} (k : Acts s t) : Acts s (t.refuse l tag st) := k.reply

/-! ### The Row Ring -/

theorem release_setRows {rs : List RowRec} (h : t.ring.settled → rs.length ≤ 2048) (k : Acts s t) :
    Acts s (t.setRows rs).release :=
  k.trans ⟨⟨id, id, id, fun hr => settled_releaseRows rfl (h hr), id, id⟩, .of_eq rfl rfl⟩

theorem passRow {page row b} (k : Acts s t) : Acts s (t.passRow page row b) :=
  .release_setRows (fun h => (List.length_map _).trans_le h.1) k

theorem finishRows {page} (k : Acts s t) : Acts s (t.finishRows page) :=
  .release_setRows (fun h => (List.length_map _).trans_le h.1) k

/-! ### Pages -/

theorem modPage_triggered {i : Nat} {f : Page → Page} (ht : s.queue.ordered → t.Triggered i)
    (hid : ∀ p, (f p).id = p.id) (hf : ∀ p, (f p).triggered) (k : Acts s t) : Acts s (t.modPage i f) :=
  ⟨⟨k.table, k.position, fun h => ordered_modPage (k.queue h) (ht h) hid hf, k.ring, k.library, k.memory⟩,
    k.raised.trans (.of_eq rfl rfl)⟩

theorem abortPage {i c} (ht : s.queue.ordered → t.Triggered i) (k : Acts s t) : Acts s (t.abortPage i c) := by
  refine .frame (.raise (.raise (.endTransitionOf (.refl _)))) (.finishRows (.frame (.abandonPage (.refl _)) ?_))
  exact .modPage_triggered ht (fun _ => rfl) (fun _ => .inr (.inr rfl)) (.frame (.clearDark (.refl _)) k)

theorem checkDonePage {i} (k : Acts s t) : Acts s (t.checkDonePage i) := by
  unfold State.checkDonePage
  split
  next p hp =>
    refine ite (fun h => ?_) fun _ => k
    refine .frame (.raise (.raise (.refl _))) (.modPage_triggered (fun ho => ?_) (fun _ => rfl)
      (fun _ => .inr (.inl rfl)) k)
    exact page_id hp ▸ triggered_of_mem (k.queue ho) (List.mem_of_find?_eq_some hp) (.inl h.1)
  next => exact k

theorem completePass {b i row} (k : Acts s t) : Acts s (t.completePass b i row) := by
  have hpass : Acts s
      ((t.modPage i fun p => { p with progress := p.progress.set b (some (row + 1)) }).passRow i row b) :=
    .passRow (.frame (.modPage (fun _ => rfl) (.refl t)) k)
  unfold State.completePass
  dsimp only
  split
  · exact .ite (fun _ => .checkDonePage (.frame (.lastPass (.refl _)) hpass)) fun _ => hpass
  · exact hpass

theorem underrun {b i row} (ht : s.queue.ordered → t.Triggered i) (k : Acts s t) : Acts s (t.underrun b i row) := by
  unfold State.underrun
  dsimp only
  split
  · exact .completePass (.frame (.modPage (fun _ => rfl) (.raise (.refl t))) k)
  · exact .abortPage ht (.frame (.raise (.refl t)) k)

end Acts

/-- A page row that a bar has at a line is that of a PRINTING page. -/
theorem pageRow_printing {s : State} {b : BarId} {line : Line} {i row : Nat} (h : s.pageRow b line = some (i, row)) :
    ∃ p ∈ s.queue.pages, p.id = i ∧ p.state = .printing := by
  obtain ⟨p, hp, hrow⟩ := List.exists_of_findSome?_eq_some h
  obtain ⟨r, hr, he⟩ := Option.map_eq_some_iff.1 hrow
  refine ⟨p, hp, congrArg Prod.fst he, ?_⟩
  unfold Page.rowAt at hr
  split at hr
  · by_contra hc
    simp [hc] at hr
  · cases hr

theorem triggered_of_pageRow {s : State} {b : BarId} {line : Line} {i row : Nat}
    (h : s.pageRow b line = some (i, row)) (ho : s.queue.ordered) : s.Triggered i := by
  obtain ⟨p, hp, rfl, hstate⟩ := pageRow_printing h
  exact triggered_of_mem ho hp (.inl hstate)

namespace Acts

variable {s t : State}

/-! ### The work of a tick -/

theorem passPage {b i row} (ht : s.queue.ordered → t.Triggered i) (k : Acts s t) : Acts s (t.passPage b i row) := by
  have hheads : Frame t ((t.tickHeads b .page (some i) t.queue.suppress (t.loadOf b i row).waiting).modBar b
      fun x => { x with next := .idle }) := .modBar (.tickHeads (.refl t))
  unfold State.passPage
  dsimp only
  generalize (t.tickHeads b .page (some i) t.queue.suppress (t.loadOf b i row).waiting).modBar b
    (fun x => { x with next := .idle }) = u at hheads ⊢
  have hdark : Frame t (if (t.activeLanes b).isEmpty then u.darkPass b i else u) :=
    .ite (fun _ => .darkPass hheads) fun _ => hheads
  refine .ite (fun _ => ?suppressed) fun _ => .ite (fun _ => ?underrun) fun _ => ?passed
  case suppressed => exact .completePass (.frame (.modPage (fun _ => rfl) (.settleTallies hheads)) k)
  case underrun => exact .underrun (fun ho => hdark.triggered (ht ho)) (k.frame hdark)
  case passed => exact .completePass (.frame (.settleTallies hdark) k)

theorem passWork {b} (k : Acts s t) : Acts s (t.passWork b) := by
  unfold State.passWork
  dsimp only
  split
  next i row hrow =>
    exact .frame (.takeParks (.refl _))
      (.passPage (fun ho => triggered_of_pageRow hrow (k.queue ho)) (.frame (.modBar (.refl t)) k))
  next => exact .frame (.takeParks (.gapAction (.modBar (.refl t)))) k

theorem runTickTask {task} (k : Acts s t) : Acts s (runTickTask task t) := by
  cases task
  case pass b => exact k.passWork
  case loads b => exact .frame (.beginLoads (.refl t)) k

theorem tickWork {n : Nat} {qs : List (List TickTask)} (k : Acts s t) : Acts s (runTasks Machine.runTickTask n qs t) :=
  runTasks_keeps (Acts s) _ (fun u h => .frame (.draw (.refl u)) h) (fun _ _ h => h.runTickTask) _ _ _ k

/-! ### Triggers -/

theorem emptyTrigger {auto} (k : Acts s t) : Acts s (t.emptyTrigger auto) := by
  refine .frame (.raise (.setPosition (fun h => ?_) ?_ ?_ (.refl t))) k
  rotate_left
  · cases auto <;> rfl
  · cases auto <;> rfl
  obtain ⟨hacc, hpitch, henc, hrows⟩ := h
  cases auto
  case false => exact ⟨hacc, hpitch, henc, hrows⟩
  case true =>
    refine ⟨hacc, hpitch, henc, fun hnone => ?_⟩
    have hlast : t.position.lastTrigger = none := by simpa using hnone
    simp [hrows hlast]

theorem earlyTrigger (k : Acts s t) : Acts s t.earlyTrigger :=
  .frame (.raise (.setPosition id rfl rfl (.refl t))) k

/-- Triggering the ARMED page and arming the next keeps the order of the queue (R29). -/
theorem ordered_trigger {u : State} {p : Page} {f : Page → Page} (ho : u.queue.ordered) (hp : u.armedPage = some p)
    (hid : ∀ q, (f q).id = q.id) (hf : ∀ q, (f q).triggered) :
    ((u.modPage p.id f).setPages (armOldest (u.modPage p.id f).queue.pages)).queue.ordered := by
  have hmem := List.mem_of_find?_eq_some hp
  have harmed : p.state = .armed := by simpa using List.find?_some hp
  obtain ⟨hlen, hnodup, hturn⟩ := (ordered_iff _).1 ho
  have hids : (u.modPage p.id f).queue.pages.map (·.id) = u.queue.pages.map (·.id) := by
    rw [State.modPage, setPages_pages, List.map_map]
    refine List.map_congr_left fun q _ => ?_
    simp only [Function.comp]
    split <;> simp [hid]
  refine ⟨?_, ?_, armOldest_inTurn (hturn.map_armed (fun q hq ha => ?_) fun q hq hne => ?_)⟩
  · rw [setPages_pages, armOldest_length]
    simpa [State.modPage] using hlen
  · rw [setPages_pages, armOldest_ids, hids]
    exact hnodup
  · obtain rfl := hturn.armed_unique hq hmem ha harmed
    rw [if_pos (beq_self_eq_true q.id)]
    exact hf q
  · have hother : q.id ≠ p.id := fun h => hne (eq_of_mem_of_id ho hmem hq h ▸ harmed)
    rw [if_neg (by simpa using hother)]

theorem takeTrigger {p} (hp : t.armedPage = some p) (k : Acts s t) : Acts s (t.takeTrigger p) := by
  unfold State.takeTrigger
  refine runTasks_keeps (Acts s) _ (fun u h => .frame (.draw (.refl u)) h)
    (fun _ u h => .frame (.beginPage (.refl u)) h) _ _ _ (k.trans ?_)
  refine ⟨⟨id, fun h => ⟨h.1, h.2.1, h.2.2.1, by simp⟩, fun ho => ?_, id, id, id⟩, rfl, rfl, fun _ => .inl rfl⟩
  exact ordered_trigger (u := t) (f := fun p => { p with state := .printing, trigger := some t.position.line }) ho hp
    (fun _ => rfl) fun _ => .inl rfl

theorem offer {auto} (k : Acts s t) : Acts s (t.offer auto) := by
  unfold State.offer
  split
  next p hp _ => exact k.takeTrigger hp
  next => exact k.earlyTrigger
  next => exact k.emptyTrigger

theorem pdetEdge (k : Acts s t) : Acts s t.pdetEdge := .ite (fun _ => k.offer) fun _ => k

end Acts

/-! ### The encoder -/

theorem forward_agrees {p : Position} (h : p.agrees) : p.forward.agrees := by
  obtain ⟨hacc, hpitch, henc, hrows⟩ := h
  unfold Position.forward
  split
  next hdepth =>
    refine ⟨?_, hpitch, ?_, hrows⟩
    · dsimp only
      split <;> omega
    · simp [henc, hdepth]
  next =>
    refine ⟨hacc, hpitch, ?_, hrows⟩
    dsimp only
    rw [henc]
    bv_omega

theorem reverse_agrees {p : Position} (h : p.agrees) : p.reverse.agrees := by
  obtain ⟨hacc, hpitch, henc, hrows⟩ := h
  unfold Position.reverse
  dsimp only
  split
  all_goals
    refine ⟨hacc, hpitch, ?_, hrows⟩
    dsimp only
    rw [henc]
    bv_omega

theorem edge_agrees {p : Position} (a b : Bool) (h : p.agrees) : (p.edge a b).agrees := by
  have hq : ({ p with encA := a, encB := b } : Position).agrees := h
  unfold Position.edge
  dsimp only
  split
  · exact hq
  · exact forward_agrees hq
  · exact forward_agrees hq
  · exact reverse_agrees hq
  · exact reverse_agrees hq

end Sys2Proof.Machine
end

section
/-! SUPPORT. The requests that move nothing an invariant reads. -/

namespace Sys2Proof.Machine

namespace Frame

variable {s t : State} {l : LinkId} {tag : Byte} {p : List Byte}

theorem setGeometry {asg bars} (k : Frame s t) : Frame s (t.setGeometry asg bars) :=
  .setBars (.setLanes (fun h => by simp) k)

theorem geoset (k : Frame s t) : Frame s (t.geoset l tag p) := by
  unfold State.geoset
  refine .ite (fun _ => k.refuse) fun _ => ?_
  split
  · exact .ite (fun _ => k.refuse) fun _ => .ite (fun _ => k.refuse) fun _ => k.setGeometry.reply
  · exact k.refuse

theorem barset (k : Frame s t) : Frame s (t.barset l tag p) := by
  unfold State.barset
  split
  · split
    · exact k.modBar.reply
    · exact k.refuse
  · exact k.refuse

theorem headOn {h wait w} (k : Frame s t) : Frame s (t.headOn l tag h wait w) := by
  unfold State.headOn
  split
  · exact .checkTemperature (.hold (.modLane k))
  · exact .checkTemperature (.hold (.modLane k))
  · exact .hold (.modLane k)
  · exact .reply (.modLane k)
  all_goals exact k.refuse

theorem hdon (k : Frame s t) : Frame s (t.hdon l tag p) := by
  unfold State.hdon
  split
  · split
    · split
      · exact .ite (fun _ => k.refuse) fun _ => k.headOn
      · exact k.refuse
    · exact k.refuse
  · exact k.refuse

theorem headOff {h} (k : Frame s t) : Frame s (t.headOff l tag h) := by
  unfold State.headOff
  split
  · exact k.reply
  · exact k.reply
  · exact .reply (.modLane k)
  · exact .reply (.modLane k.leaveActive)
  · exact .reply (.modLane k)
  · exact .reply (.modLane k)
  all_goals exact k.refuse

theorem hdoff (k : Frame s t) : Frame s (t.hdoff l tag p) := by
  unfold State.hdoff
  split
  · split
    · exact .ite (fun _ => k.refuse) fun _ => k.headOff
    · exact k.refuse
  · exact k.refuse

theorem headPark {h wait now} (k : Frame s t) : Frame s (t.headPark l tag h wait now) := by
  unfold State.headPark
  split
  · exact .hold (.modLane k)
  · exact k.hold
  · exact k.reply
  all_goals exact k.refuse

theorem hdpark (k : Frame s t) : Frame s (t.hdpark l tag p) := by
  unfold State.hdpark
  split
  · split
    · exact .ite (fun _ => k.refuse) fun _ => k.headPark
    · exact k.refuse
  · exact k.refuse

theorem hdrein (k : Frame s t) : Frame s (t.hdrein l tag p) := by
  unfold State.hdrein
  split
  · split
    · exact .ite (fun _ => .reply (.modLane k)) fun _ => k.refuse
    · exact k.refuse
  · exact k.refuse

theorem lanescan (k : Frame s t) : Frame s (t.lanescan l tag p) := by
  unfold State.lanescan
  split
  · exact .ite (fun _ => k.refuse) fun _ => .ite (fun _ => k.refuse) fun _ => .setBusy (.foldl beginProbe _ k)
  · exact k.refuse

theorem drvset (k : Frame s t) : Frame s (t.drvset l tag p) := by
  unfold State.drvset
  split
  · split
    · exact .ite (fun _ => k.refuse) fun _ => .reply (.checkTemperature (.modLane k))
    · exact k.refuse
  · exact k.refuse

theorem nzedit (k : Frame s t) : Frame s (t.nzedit l tag p) := by
  unfold State.nzedit
  split
  · exact k.refuse
  · refine .ite (fun _ => k.refuse) fun _ => .ite (fun _ => k.refuse) fun _ => ?_
    split
    · exact k.refuse
    · exact .ite (fun _ => k.refuse) fun _ => .reply k.setLists

theorem nzdrop (k : Frame s t) : Frame s (t.nzdrop l tag p) :=
  .ite (fun _ => k.refuse) fun _ => .reply k.setLists

theorem nzread (k : Frame s t) : Frame s (t.nzread l tag p) := by
  unfold State.nzread
  split
  · exact .ite (fun _ => k.refuse) fun _ => .reply k.draw
  · exact k.refuse

theorem nzcommit (k : Frame s t) : Frame s (t.nzcommit l tag p) := by
  unfold State.nzcommit
  split
  · split
    · refine .ite (fun _ => k.refuse) fun _ => .ite (fun _ => k.reply) fun _ => .ite (fun _ => ?_) fun _ => ?_
      · split
        · exact k.refuse
        · exact .ite (fun _ => k.refuse) fun _ => .ite (fun _ => k.refuse) fun _ => .ite (fun _ => k.refuse) fun _ =>
            .ite (fun _ => .setBusy k.setLists) fun _ => .reply k.setLists
      · exact .reply (.setLists k.writeTable)
    · exact k.refuse
  · exact k.refuse

theorem ptlist (k : Frame s t) : Frame s (t.ptlist l tag p) :=
  .ite (fun _ => k.refuse) fun _ => .reply k.setFresh

theorem openCheck {n bars} (k : Frame s t) : Frame s (t.openCheck n bars) :=
  .setBars (.setLibrary rfl rfl k)

theorem chkprint (k : Frame s t) : Frame s (t.chkprint l tag p) := by
  unfold State.chkprint
  split
  · refine .ite (fun _ => k.refuse) fun _ => ?_
    split
    · exact k.refuse
    · refine .ite (fun _ => k.refuse) fun _ => .ite (fun _ => k.refuse) fun _ => .ite (fun _ => k.refuse) fun _ => ?_
      split
      · exact k.refuse
      · exact .ite (fun _ => k.refuse) fun _ => .ite (fun _ => k.refuse) fun _ => .ite (fun _ => k.refuse) fun _ =>
          .ite (fun _ => k.openCheck.setBusy) fun _ => k.openCheck.reply
  · exact k.refuse

theorem statrd (k : Frame s t) : Frame s (t.statrd l tag p) := .ite (fun _ => k.refuse) fun _ => k.reply

theorem pgstat (k : Frame s t) : Frame s (t.pgstat l tag p) := by
  unfold State.pgstat
  split
  · refine .ite (fun _ => k.reply) fun _ => ?_
    split
    · exact k.refuse
    · exact k.reply
  · exact k.refuse

theorem evrd (k : Frame s t) : Frame s (t.evrd l tag p) := .ite (fun _ => k.refuse) fun _ => k.reply

theorem evclr (k : Frame s t) : Frame s (t.evclr l tag p) := by
  unfold State.evclr
  split
  · exact .ite (fun _ => k.refuse) fun _ => .reply (.modLink (.inl rfl) k)
  · exact k.refuse

theorem evmask (k : Frame s t) : Frame s (t.evmask l tag p) := by
  unfold State.evmask
  split
  · exact .ite (fun _ => k.refuse) fun _ => .reply (.modLink (.inl rfl) k)
  · exact k.refuse

theorem wdraw (k : Frame s t) : Frame s (t.wdraw l tag p) := by
  unfold State.wdraw
  refine .ite (fun _ => k.refuse) fun _ => ?_
  split
  · exact .reply (.setBusy k.reply)
  · exact k.refuse

theorem suppr (k : Frame s t) : Frame s (t.suppr l tag p) := by
  unfold State.suppr
  split
  · exact .ite (fun _ => .reply (.setQueue rfl k)) fun _ => k.refuse
  · exact k.refuse

theorem ringmark (k : Frame s t) : Frame s (t.ringmark l tag p) := by
  unfold State.ringmark
  split
  · exact .ite (fun _ => .reply (.setRing rfl k)) fun _ => k.refuse
  · exact k.refuse

theorem abortRequests (k : Frame s t) : Frame s t.abortRequests := by
  have service : Frame s (match (t.link .service).busy with
      | some (.waiting tag _) => (t.setBusy .service none).reply .service tag .aborted []
      | _ => t) := by
    split
    · exact k.setBusy.reply
    · exact k
  unfold State.abortRequests
  dsimp only
  split
  · exact service.setBusy.reply
  · exact service

end Frame

end Sys2Proof.Machine
end

section
/-! SUPPORT. The requests that move a block with an invariant, and that every request keeps the invariants. -/

namespace Sys2Proof.Machine

/-! ### The Position Unit -/

theorem setup_agrees {x : Position} {pitch : Nat} {swapped source holdoff autoPitch} (hp : 256 ≤ pitch)
    (h : x.agrees) : (x.setup pitch swapped source holdoff autoPitch).agrees := by
  obtain ⟨hacc, hpitch, henc, hrows⟩ := h
  refine ⟨?_, hp, henc, hrows⟩
  simp only [Position.setup]
  split <;> omega

theorem zero_agrees {x : Position} (h : x.agrees) : x.zero.agrees := by
  obtain ⟨hacc, hpitch, henc, hrows⟩ := h
  exact ⟨by simp only [Position.zero]; omega, hpitch, by simp [Position.zero], fun _ => rfl⟩

/-! ### The Pattern Library -/

/-- The rows that a first fit finds lie clear of every extent and within the memory (R158). -/
theorem firstFit_freeRun {dir : List Pattern} {n start : Nat} (h : firstFit dir n = some start) (hn : n ≤ 1024) :
    FreeRun dir start n := by
  have hmem := List.mem_range.1 (List.mem_of_find?_eq_some h)
  have hall : dir.all (·.clearOf start n) = true :=
    List.find?_some (p := fun start => dir.all (·.clearOf start n)) h
  have hclear := List.all_eq_true.1 hall
  simp only [Config.patternRows] at hmem
  refine ⟨by omega, fun e he => ?_⟩
  simpa [Pattern.clearOf] using hclear e he

theorem ordered_addPattern {x : Library} {e : Pattern} (h : x.ordered) (hlen : x.directory.length < 24)
    (hname : ∀ d ∈ x.directory, d.name ≠ e.name) (hrows : 1 ≤ e.rows ∧ e.rows ≤ 256)
    (hfree : FreeRun x.directory e.start e.rows) : ({ x with directory := x.directory ++ [e] } : Library).ordered := by
  obtain ⟨_, hnodup, hbounds, hdisjoint⟩ := h
  obtain ⟨hend, hclear⟩ := hfree
  refine ⟨by simpa using hlen, ?_, ?_, ?_⟩
  · rw [List.map_append, List.nodup_append]
    refine ⟨hnodup, by simp, fun a ha b hb => ?_⟩
    obtain ⟨d, hd, rfl⟩ := List.mem_map.1 ha
    obtain rfl : b = e.name := by simpa using hb
    exact hname d hd
  · rw [List.forall_mem_append]
    exact ⟨hbounds, by simpa using ⟨hrows.1, hrows.2, hend⟩⟩
  · rw [List.pairwise_append]
    refine ⟨hdisjoint, by simp, fun d hd f hf => ?_⟩
    obtain rfl := List.mem_singleton.1 hf
    exact (hclear d hd).symm

theorem ordered_filterPatterns {x : Library} (keep : Pattern → Bool) (h : x.ordered) :
    ({ x with directory := x.directory.filter keep } : Library).ordered := by
  obtain ⟨hlen, hnodup, hbounds, hdisjoint⟩ := h
  refine ⟨(List.length_filter_le _ _).trans hlen, ?_, fun e he => hbounds e (List.mem_of_mem_filter he),
    hdisjoint.filter _⟩
  exact hnodup.sublist (List.filter_sublist.map _)

/-- Changes of entries that leave names and extents keep the directory's order. -/
theorem ordered_mapPatterns {x : Library} {f : Pattern → Pattern}
    (hf : ∀ e, (f e).name = e.name ∧ (f e).rows = e.rows ∧ (f e).start = e.start) (h : x.ordered) {memory} :
    ({ x with memory := memory, directory := x.directory.map f } : Library).ordered := by
  obtain ⟨hlen, hnodup, hbounds, hdisjoint⟩ := h
  refine ⟨by simpa using hlen, ?_, fun e he => ?_, ?_⟩
  · have : (x.directory.map f).map (·.name) = x.directory.map (·.name) := by
      rw [List.map_map]
      exact List.map_congr_left fun e _ => (hf e).1
    exact this ▸ hnodup
  · obtain ⟨d, hd, rfl⟩ := List.mem_map.1 he
    obtain ⟨_, hrows, hstart⟩ := hf d
    rw [hrows, hstart]
    exact hbounds d hd
  · refine List.pairwise_map.2 (hdisjoint.imp fun {d e} hde => ?_)
    obtain ⟨_, hd, hds⟩ := hf d
    obtain ⟨_, he, hes⟩ := hf e
    rw [hd, hds, he, hes]
    exact hde

/-! ### The Row Ring -/

@[simp] theorem settle_writing (r : RowRec) : r.settle.writing = r.writing := by
  unfold RowRec.settle
  split <;> rfl

theorem newRow_writing (p : Page) (row : Nat) (st : PartStatus) (w : Option BarId) : (newRow p row st w).writing = w :=
  settle_writing _

/-- A row with its write in flight at the newest end is not due. -/
theorem settled_append {r q : Ring} {x : RowRec} (hrows : q.rows = r.rows ++ [x]) (hlen : r.rows.length < 2048)
    (hx : x.writing ≠ none) (h : r.settled) : q.settled := by
  refine ⟨by simpa [hrows] using hlen, fun y hy => ?_⟩
  rw [hrows] at hy
  cases hr : r.rows with
  | nil =>
    obtain rfl : x = y := by simpa [hr] using hy
    exact fun hdue => hx hdue.2
  | cons z zs =>
    obtain rfl : z = y := by simpa [hr] using hy
    exact h.2 z (by simp [hr])

/-- Rows whose change begins a write, or leaves them as they were, are due no more than before. -/
theorem settled_map {r q : Ring} {f : RowRec → RowRec} (hrows : q.rows = r.rows.map f)
    (hf : ∀ x, f x = x ∨ (f x).writing ≠ none) (h : r.settled) : q.settled := by
  refine ⟨by simpa [hrows] using h.1, fun y hy => ?_⟩
  rw [hrows, List.head?_map] at hy
  obtain ⟨x, hx, rfl⟩ := Option.map_eq_some_iff.1 (Option.mem_def.1 hy)
  rcases hf x with he | hw
  · rw [he]
    exact h.2 x hx
  · exact fun hdue => hw hdue.2

/-! ### The queue while a transition ends -/

@[simp] theorem endWait_queue (s : State) op st p : (s.endWait op st p).queue = s.queue := by
  unfold State.endWait
  repeat' split
  all_goals rfl

@[simp] theorem endTransition_queue (s : State) : s.endTransition.queue = s.queue := by
  unfold State.endTransition
  split
  · rfl
  · simp [State.writeTable]

@[simp] theorem endTransitionOf_queue (s : State) page : (s.endTransitionOf page).queue = s.queue := by
  unfold State.endTransitionOf
  repeat' split
  all_goals simp

/-- The queue after an abort: the page ABORTED with its cause, and nothing else of the queue (R35). -/
theorem abortPage_queue (s : State) (i : Nat) (c : AbortCause) :
    (s.abortPage i c).queue = (s.modPage i fun p => { p with state := .aborted, cause := some c }).queue :=
  endTransitionOf_queue _ _

theorem State.Triggered.abortPage {s : State} {i j : Nat} {c : AbortCause} (h : s.Triggered j) :
    (s.abortPage i c).Triggered j := by
  intro p hp hid
  rw [abortPage_queue, State.modPage, setPages_pages] at hp
  obtain ⟨q, hq, rfl⟩ := List.mem_map.1 hp
  split at hid
  · rw [if_pos ‹_›]
    exact .inr (.inr rfl)
  · rw [if_neg ‹_›]
    exact h q hq hid

namespace Acts

variable {s t : State} {l : LinkId} {tag : Byte} {p : List Byte}

/-! ### Pages -/

theorem setPages {ps : List Page} (hps : t.queue.ordered → ps.length ≤ 8 ∧ (ps.map (·.id)).Nodup ∧ InTurn ps)
    (k : Acts s t) : Acts s (t.setPages ps) :=
  k.trans ⟨⟨id, id, hps, id, id, id⟩, .of_eq rfl rfl⟩

theorem openPage {i rows bars name} (hi : t.page i = none) (hlen : t.queue.pages.length < 8) (k : Acts s t) :
    Acts s (t.openPage i rows bars name) := by
  refine .setPages (fun ho => ?_) k
  obtain ⟨_, hnodup, hturn⟩ := (ordered_iff _).1 ho
  refine ⟨by simpa using hlen, ?_, hturn.append rfl⟩
  rw [List.map_append, List.nodup_append]
  refine ⟨hnodup, by simp, fun a ha b hb => ?_⟩
  obtain ⟨q, hq, rfl⟩ := List.mem_map.1 ha
  obtain rfl : b = i := by simpa [newPage] using hb
  simpa using List.find?_eq_none.1 hi q hq

theorem pgopen (k : Acts s t) : Acts s (t.pgopen l tag p) := by
  unfold State.pgopen
  split
  · refine .ite (fun _ => k.refuse) fun _ => .ite (fun _ => k.refuse) fun _ => .ite (fun _ => k.refuse) fun _ =>
      .ite (fun _ => k.refuse) fun _ => .ite (fun _ => k.refuse) fun hnew => .ite (fun _ => k.refuse) fun hfull =>
      .ite (fun _ => k.refuse) fun _ => .reply (.openPage ?_ ?_ k)
    · simpa using (not_or.1 hnew).1
    · exact not_le.1 hfull
  · exact k.refuse

/-- The pages left by the removal of one that was not triggered, or has ended. -/
theorem ordered_without {u : State} {q : Page} (ho : u.queue.ordered) (hq : q ∈ u.queue.pages) :
    let ps := u.queue.pages.filter (·.id != q.id)
    ps.length ≤ 8 ∧ (ps.map (·.id)).Nodup ∧ (q.state ≠ .armed → InTurn ps) ∧ (q.state = .armed → Unarmed ps) := by
  obtain ⟨hlen, hnodup, hturn⟩ := (ordered_iff _).1 ho
  refine ⟨(List.length_filter_le _ _).trans hlen, hnodup.sublist (List.filter_sublist.map _), fun hne => ?_, fun ha => ?_⟩
  · refine hturn.filter fun r hr hk => ?_
    obtain rfl := eq_of_mem_of_id ho hq hr (by simpa using hk)
    exact hne
  · refine hturn.filter_armed fun r hr har => ?_
    obtain rfl := hturn.armed_unique hr hq har ha
    simp

theorem pgretire (k : Acts s t) : Acts s (t.pgretire l tag p) := by
  unfold State.pgretire
  split
  · split
    · exact k.refuse
    next q hq =>
      refine .ite (fun hend => .reply (.setPages (fun ho => ?_) k)) fun _ => k.refuse
      obtain ⟨hlen, hnodup, hturn, _⟩ := ordered_without ho (List.mem_of_find?_eq_some hq)
      exact ⟨hlen, hnodup, hturn (by rcases hend with h | h <;> simp [h])⟩
  · exact k.refuse

theorem removePage {q : Page} (hq : q ∈ t.queue.pages) (k : Acts s t) : Acts s (t.removePage q) := by
  let u := t.setPages (t.queue.pages.filter (·.id != q.id))
  let v := ((u.abandonPage q.id).finishRows q.id).endTransitionOf q.id
  have hv : Acts u v := .frame (.endTransitionOf (.refl _)) (.finishRows (.frame (.abandonPage (.refl u)) (.refl u)))
  have hqueue : v.queue = u.queue := endTransitionOf_queue _ _
  unfold State.removePage
  refine .ite (fun ha => k.trans ?armed) fun ha => k.trans ?other
  case armed =>
    refine ⟨⟨hv.table, hv.position, fun ho => ?_, hv.ring, hv.library, hv.memory⟩, hv.raised.tick, hv.raised.auto,
      hv.raised.assembler⟩
    obtain ⟨hlen, hnodup, _, hunarmed⟩ := ordered_without ho hq
    refine (ordered_iff _).2 ?_
    change (armOldest v.queue.pages).length ≤ 8 ∧ ((armOldest v.queue.pages).map (·.id)).Nodup ∧ InTurn (armOldest v.queue.pages)
    rw [hqueue, armOldest_length, armOldest_ids]
    exact ⟨hlen, hnodup, armOldest_inTurn (hunarmed ha)⟩
  case other =>
    refine ⟨⟨hv.table, hv.position, fun ho => ?_, hv.ring, hv.library, hv.memory⟩, hv.raised.tick, hv.raised.auto,
      hv.raised.assembler⟩
    obtain ⟨hlen, hnodup, hturn, _⟩ := ordered_without ho hq
    change v.queue.ordered
    rw [hqueue]
    exact ⟨hlen, hnodup, hturn ha⟩

theorem pgcancel (k : Acts s t) : Acts s (t.pgcancel l tag p) := by
  unfold State.pgcancel
  split
  · split
    · exact k.refuse
    next q hq =>
      have hmem := List.mem_of_find?_eq_some hq
      split
      · exact .reply (.removePage hmem k)
      · exact .reply (.removePage hmem k)
      next hstate => exact .reply (.abortPage (fun ho => triggered_of_mem (k.queue ho) hmem (.inl hstate)) k)
      · exact k.refuse
      · exact k.refuse
  · exact k.refuse

/-- Aborts one after the other: an abort leaves every id triggered that was. -/
theorem abortAll (k : Acts s t) : Acts s t.abortAll := by
  have step : ∀ (ids : List Nat) (u : State), Acts s u → (s.queue.ordered → ∀ i ∈ ids, u.Triggered i) →
      Acts s (ids.foldl (fun s i => s.abortPage i .motionAbort) u) := by
    intro ids
    induction ids with
    | nil => exact fun u h _ => h
    | cons i ids ih =>
      intro u h ht
      refine ih _ (.abortPage (fun ho => ht ho i List.mem_cons_self) h) fun ho j hj => ?_
      exact (ht ho j (List.mem_cons_of_mem i hj)).abortPage
  refine step _ t k fun ho i hi => ?_
  obtain ⟨q, hq, rfl⟩ := List.mem_map.1 hi
  obtain ⟨hmem, hstate⟩ := List.mem_filter.1 hq
  exact triggered_of_mem (k.queue ho) hmem (.inl (by simpa using hstate))

theorem pgabort (k : Acts s t) : Acts s (t.pgabort l tag p) := by
  unfold State.pgabort
  split
  · refine .ite (fun _ => .ite (fun _ => k.abortAll.reply) fun _ => k.refuse) fun _ => ?_
    split
    · exact k.refuse
    next q hq =>
      refine .ite (fun h => .reply (.abortPage (fun ho => ?_) k)) fun _ => k.refuse
      exact triggered_of_mem (k.queue ho) (List.mem_of_find?_eq_some hq) (.inl h)
  · exact k.refuse

/-! ### The Position Unit -/

theorem lnsetup (k : Acts s t) : Acts s (t.lnsetup l tag p) := by
  unfold State.lnsetup
  split
  · split
    · exact k.refuse
    · refine .ite (fun _ => k.refuse) fun hfields => .ite (fun _ => k.refuse) fun _ => .reply ?_
      refine .frame (.setQueue rfl (.setPosition (setup_agrees ?_) rfl rfl (.refl t))) k
      exact not_lt.1 (not_or.1 hfields).1
  · exact k.refuse

theorem lnzero (k : Acts s t) : Acts s (t.lnzero l tag p) :=
  .ite (fun _ => k.refuse) fun _ => .ite (fun _ => k.refuse) fun _ =>
    .frame (.reply (.setPosition zero_agrees rfl rfl (.refl t))) k

theorem trig (k : Acts s t) : Acts s (t.trig l tag p) :=
  .ite (fun _ => k.refuse) fun _ => .ite (fun _ => k.refuse) fun _ => k.offer.reply

/-! ### The Pattern Library -/

theorem setLibrary {x : Library} (hd : t.library.ordered → x.ordered)
    (hm : Memory.wf t.library.memory = true → Memory.wf x.memory = true) (k : Acts s t) :
    Acts s (t.setLibrary x) :=
  k.trans ⟨⟨id, id, id, id, hd, hm⟩, .of_eq rfl rfl⟩

theorem ptnew (k : Acts s t) : Acts s (t.ptnew l tag p) := by
  unfold State.ptnew
  split
  · refine .ite (fun _ => k.refuse) fun _ => ?_
    split
    · exact k.refuse
    · refine .ite (fun _ => k.refuse) fun hrows => .ite (fun _ => k.refuse) fun _ => .ite (fun _ => k.refuse) fun hfull =>
        .ite (fun _ => k.refuse) fun hnew => ?_
      split
      · exact k.refuse
      next start hfit =>
        refine .reply (.setLibrary (fun ho => ?_) id k)
        refine ordered_addPattern ho (not_le.1 hfull) (fun d hd => ?_) ?_ (firstFit_freeRun hfit ?_)
        · simpa using List.find?_eq_none.1 (Option.not_isSome_iff_eq_none.1 hnew) d hd
        all_goals
          dsimp only
          omega
  · exact k.refuse

theorem writePattern {e i levels} (k : Acts s t) : Acts s (t.writePattern e i levels) := by
  refine .setLibrary (fun ho => ordered_mapPatterns (fun x => ?_) ho) (Memory.wf_writeRun _ _ _) k
  split <;> exact ⟨rfl, rfl, rfl⟩

theorem ptrow (k : Acts s t) : Acts s (t.ptrow l tag p) := by
  unfold State.ptrow
  refine .ite (fun _ => k.refuse) fun _ => ?_
  split
  · split
    · exact k.refuse
    · exact .ite (fun _ => k.refuse) fun _ => k.writePattern.reply
  · exact k.refuse

theorem ptdel (k : Acts s t) : Acts s (t.ptdel l tag p) := by
  unfold State.ptdel
  refine .ite (fun _ => k.refuse) fun _ => .ite (fun _ => k.refuse) fun _ => ?_
  split
  · exact k.refuse
  · exact .ite (fun _ => k.refuse) fun _ => .reply (.setLibrary (ordered_filterPatterns _) id k)

/-! ### The Row Ring -/

theorem rowput (k : Acts s t) : Acts s (t.rowput l tag p) := by
  unfold State.rowput
  split
  · dsimp only
    split
    · exact k.refuse
    next b _ =>
      split
      · exact k.refuse
      next q _ =>
        refine .ite (fun _ => k.refuse) fun _ => .ite (fun _ => k.refuse) fun _ => .ite (fun _ => k.refuse) fun _ =>
          .ite (fun _ => k.refuse) fun _ => .ite (fun _ => .ite (fun _ => k.refuse) fun hfree => ?create) fun _ =>
          .ite (fun _ => ?fill) fun _ => k.refuse
        case create =>
          refine .frame (.setBusy (.modPage (fun _ => rfl) (.refl _))) (k.trans ⟨⟨id, id, id, fun h => ?_, id, id⟩, .of_eq rfl rfl⟩)
          refine settled_append rfl ?_ (by simp [newRow_writing]) h
          simp only [State.freeSlots, Config.ringSlots] at hfree
          omega
        case fill =>
          refine .frame (.setBusy (.refl _)) (k.trans ⟨⟨id, id, id, settled_map rfl fun x => ?_, id, id⟩, .of_eq rfl rfl⟩)
          split
          · exact .inr (by simp)
          · exact .inl rfl
  · exact k.refuse

/-- The rows of a page completed one after the other move no row record. -/
theorem frame_completeRow {u : State} {i row} (f : Frame t u) : Frame t (u.completeRow i row) :=
  .handRow (.modPage (fun _ => rfl) f)

theorem writeComplete (k : Acts s t) : Acts s t.writeComplete := by
  unfold State.writeComplete
  split
  next tag i row b part _ _ =>
    let u := ((t.setStore .free).setBusy .image none).modRow i row (·.store b part)
    let v := if u.rowComplete i row then u.completeRow i row else u
    have hv : Frame u v := .ite (fun _ => frame_completeRow (.refl u)) fun _ => .refl u
    have hlen : v.ring.rows.length = t.ring.rows.length := by rw [hv.rows]; exact List.length_map _
    have hbusy : Frame t ((t.setStore .free).setBusy .image none) := .setBusy (.setStore (.refl t))
    have hu : SameRaised t u := hbusy.raised.trans (.of_eq rfl rfl)
    refine .reply (t := v.release) (k.trans ⟨⟨hv.table, hv.position, ordered_of_tags hv.tags, fun h => ?_,
      library_ordered_of_directory hv.directory, fun h => hv.memory ▸ h⟩, hu.trans (hv.raised.trans (.of_eq rfl rfl))⟩)
    exact settled_releaseRows rfl (hlen.trans_le h.1)
  next => exact k

theorem skipRows {q first count} (hfree : t.ring.settled → t.ring.rows.length + count ≤ 2048) (k : Acts s t) :
    Acts s (t.skipRows q first count) := by
  let u := t.appendRows q.id (blankRows q first count)
  let v := (List.range count).foldl (fun s i => s.completeRow q.id (first + i)) u
  have hu : Frame (t.setRows (t.ring.rows ++ blankRows q first count)) u := .modPage (fun _ => rfl) (.refl _)
  have hv : Frame u v := .foldl (fun f => frame_completeRow f) _ (.refl u)
  have huv := hu.trans hv
  refine k.trans ⟨⟨huv.table, huv.position, ordered_of_tags huv.tags, fun h => ?_,
    library_ordered_of_directory huv.directory, fun h => huv.memory ▸ h⟩, huv.raised.tick, huv.raised.auto,
    huv.raised.assembler⟩
  refine settled_releaseRows (rs := v.ring.rows) rfl ?_
  rw [huv.rows]
  simpa [blankRows] using hfree h

theorem rowskip (k : Acts s t) : Acts s (t.rowskip l tag p) := by
  unfold State.rowskip
  split
  · refine .ite (fun _ => k.refuse) fun _ => ?_
    split
    · exact k.refuse
    · refine .ite (fun _ => k.refuse) fun _ => .ite (fun _ => k.refuse) fun _ => .ite (fun _ => k.refuse) fun _ =>
        .ite (fun _ => k.refuse) fun hfree => .reply (.skipRows (fun _ => ?_) k)
      simp only [State.freeSlots, Config.ringSlots] at hfree
      omega
  · exact k.refuse

/-! ### Press Reset -/

theorem pressReset (k : Acts s t) : Acts s t.pressReset := by
  have habort : Acts s t.abortRequests := k.frame (.abortRequests (.refl t))
  unfold State.pressReset
  refine .frame (.setSent (.raise (.raise (.raise (.idleAssembler (.idleAssembler (.setLibrary rfl rfl (.setLists
    (.refl _))))))))) ?_
  refine .frame (.setLanes (fun h => by simp [Lane.pressReset, Lane.identify, State.lane]) (.setBars (.refl _))) ?_
  refine habort.trans
    ⟨⟨id, fun h => ⟨h.1, h.2.1, h.2.2.1, fun _ => rfl⟩, fun _ => ?_, fun _ => ⟨by simp, by simp⟩, id, id⟩,
      rfl, rfl, fun _ => .inl rfl⟩
  exact ⟨by simp, by simp, [], [], by simp⟩

theorem prreset (k : Acts s t) : Acts s (t.prreset l tag p) :=
  .ite (fun _ => k.refuse) fun _ => k.pressReset.reply

/-! ### Requests and events -/

/-- What every request does keeps the invariants. -/
theorem actOf (n : Nat) (s : State) (l : LinkId) (tag : Byte) (p : List Byte) : Acts s (actOf n s l tag p) := by
  have k := refl s
  have f := Frame.refl s
  unfold Machine.actOf
  split
  · exact k.pgopen
  · exact k.rowput
  · exact k.rowskip
  · exact k.pgcancel
  · exact k.pgretire
  · exact f.ringmark.acts
  · exact k.lnsetup
  · exact k.lnzero
  · exact k.trig
  · exact f.suppr.acts
  · exact k.pgabort
  · exact f.geoset.acts
  · exact f.barset.acts
  · exact f.hdon.acts
  · exact f.hdoff.acts
  · exact f.hdpark.acts
  · exact f.hdrein.acts
  · exact f.lanescan.acts
  · exact f.drvset.acts
  · exact f.nzedit.acts
  · exact f.nzcommit.acts
  · exact f.nzdrop.acts
  · exact f.nzread.acts
  · exact k.ptnew
  · exact k.ptrow
  · exact k.ptdel
  · exact f.ptlist.acts
  · exact f.chkprint.acts
  · exact k.prreset
  · exact f.statrd.acts
  · exact f.pgstat.acts
  · exact f.evrd.acts
  · exact f.evclr.acts
  · exact f.evmask.acts
  · exact f.wdraw.acts
  · exact k

theorem takePacket (s : State) (l : LinkId) (tag : Byte) (n : Nat) (p : List Byte) : Acts s (s.takePacket l tag n p) := by
  have hidle : Acts s (s.idleAssembler l) := .frame (.idleAssembler (.refl s)) (refl s)
  unfold State.takePacket State.take
  split
  · exact hidle.refuse
  · exact hidle.trans (actOf n _ l tag p)

theorem badCheck {l} (k : Acts s t) : Acts s (t.badCheck l) := .frame (.reply (.modLink (.inr rfl) (.refl t))) k

theorem discardPacket {l} (k : Acts s t) : Acts s (t.discardPacket l) := .frame (.modLink (.inr rfl) (.refl t)) k

theorem checkPacket {l bytes} (s : State) : Acts s (s.checkPacket l bytes) := by
  unfold State.checkPacket
  split
  · exact .ite (fun _ => takePacket s l _ _ _) fun _ => (refl s).badCheck
  · exact (refl s).badCheck

/-- What ends an event leaves every block's invariant, and raises nothing to be delivered. -/
theorem event {f : State → State} (k : Acts s (f s)) : Acts s (event f s) := by
  refine ⟨k.toKeeps.event, k.raised.trans ⟨?_, ?_, fun l => .inl ?_⟩⟩
  · rw [event_position]
  · rw [event_position]
  · rw [event_link]

end Acts

namespace Keeps

variable {s t : State}

/-- A change of the Position Unit that keeps its agreement, and of nothing else. -/
theorem setPosition {x : Position} (hx : t.position.agrees → x.agrees) (k : Keeps s t) : Keeps s (t.setPosition x) :=
  k.trans ⟨id, hx, id, id, id, id⟩

theorem lineTick (s : State) : Keeps s s.lineTick := by
  have hline : Keeps s (s.setPosition { s.position with line := s.position.line + 1, tickRaised := false }) :=
    .setPosition id (Acts.refl s).toKeeps
  exact .setPosition id (hline.trans (Acts.tickWork (.refl _)).toKeeps)

theorem autoTrigger (s : State) : Keeps s s.autoTrigger := by
  have hraised : Keeps s (s.setPosition { s.position with autoRaised := false }) :=
    .setPosition id (Acts.refl s).toKeeps
  exact hraised.trans (Acts.offer (.refl _)).toKeeps

/-- What every event does keeps the invariants. -/
theorem effect {f : State → State} (hf : Effect f) (s : State) : Keeps s (f s) := by
  have k := Acts.refl s
  have r := Frame.refl s
  cases hf
  case lineTick => exact lineTick s
  case autoTrigger => exact autoTrigger s
  case takePacket l tag n p => exact (Acts.takePacket s l tag n p).toKeeps
  case badCheck l => exact k.badCheck.toKeeps
  case discardPacket l => exact k.discardPacket.toKeeps
  case packetByte l b => exact ⟨id, id, id, id, id, id⟩
  case inactivity l =>
    dsimp only [State.inactivity]
    split
    · exact k.discardPacket.toKeeps
    · exact r.keeps
  case encoderEdge a b => exact .setPosition (edge_agrees a b) k.toKeeps
  case pdetEdge => exact k.pdetEdge.toKeeps
  case warmExpiry h => exact r.warmExpiry.keeps
  case settleExpiry h => exact r.settleExpiry.keeps
  case retryExpiry h => exact r.retryExpiry.keeps
  case slewExpiry h => exact r.slewExpiry.keeps
  case identifyAnswer h i n t => exact r.identifyAnswer.keeps
  case identifyTimeout h => exact r.identifyTimeout.keeps
  case loadReply h n st t reports => exact r.loadReply.keeps
  case loadTimeout h => exact r.loadTimeout.keeps
  case fireComplete h n => exact r.fireComplete.keeps
  case loadSend h => exact r.loadSend.keeps
  case grant => exact r.grant.keeps
  case readDone => exact r.readDone.keeps
  case writeComplete => exact k.writeComplete.toKeeps

/-- POWER_ON establishes every invariant. -/
theorem restart (s : State) (a b : Bool) : Keeps s (s.restart a b) where
  table _ h := by rw [restart_lane]; exact List.length_replicate
  position _ := ⟨(by decide : 0 < 256), (by decide : 256 ≤ 256), (by decide : (0 : Line) = 0 - 0), fun _ => rfl⟩
  queue _ := ⟨(by decide : 0 ≤ 8), List.nodup_nil, [], [], rfl, by simp, by simp, by simp⟩
  ring _ := ⟨(by decide : 0 ≤ 2048), by simp [State.restart, State.powerOn]⟩
  library _ := ⟨(by decide : 0 ≤ 24), List.nodup_nil, List.forall_mem_nil _, List.Pairwise.nil⟩
  memory _ := rfl

end Keeps

/-- An invariant that the effects of events and POWER_ON keep is kept by every step. -/
theorem step_keeps_invariant (P : State → Prop) (hkeeps : ∀ {s t : State}, Keeps s t → P s → P t) {s t : State}
    (h : P s) (hs : step s = .next t) : P t :=
  step_keeps P (fun s x h => hkeeps (s := s) (t := s.setPending x) ⟨id, id, id, id, id, id⟩ h) (fun s _ h => hkeeps (Frame.idleAssembler (.refl s)).keeps h)
    (fun _ s hf h => hkeeps (Keeps.event (Keeps.effect hf s)) h) (fun s a b h => hkeeps (Keeps.restart s a b) h) h hs

end Sys2Proof.Machine
end

section
/-! The invariants of the Row Ring, the Page Queue, the Position Unit, the nozzle table and the Pattern Library, at every
step: each is a part of what every effect keeps. -/

namespace Sys2Proof.Machine

/-- Settles O24: the rows at the oldest end are checked after every change that can make one due. -/
theorem ringStaysSettled : Obligations.RingStaysSettled :=
  fun _ _ h hs => step_keeps_invariant (·.ring.settled) Keeps.ring h hs

/-- Settles O25: ids stay distinct, and pages move from DECLARED to ARMED to triggered in queue order. -/
theorem queueStaysOrdered : Obligations.QueueStaysOrdered :=
  fun _ _ h hs => step_keeps_invariant (·.queue.ordered) Keeps.queue h hs

/-- Settles O29: the encoder's edges, LNSETUP, LNZERO and triggers keep the Position Unit's agreement. -/
theorem positionStaysInAgreement : Obligations.PositionStaysInAgreement :=
  fun _ _ h hs => step_keeps_invariant (·.position.agrees) Keeps.position h hs

/-- Settles O48: every change of a nozzle list keeps its length. -/
theorem tableStaysWhole : Obligations.TableStaysWhole :=
  fun _ _ h hs => step_keeps_invariant State.tableWhole Keeps.table h hs

/-- Settles O53: PTNEW's first fit is clear of every extent, PTDEL takes entries out, and PTROW's writes keep the
canonical form. -/
theorem patternLibraryStaysInOrder : Obligations.PatternLibraryStaysInOrder :=
  fun _ _ hs => ⟨fun h => step_keeps_invariant (fun s => Memory.wf s.library.memory = true) Keeps.memory h hs,
    fun h => step_keeps_invariant (·.library.ordered) Keeps.library h hs⟩

end Sys2Proof.Machine
end

section
/-! Steps, and the state after reset. -/

namespace Sys2Proof.Machine

/-- Settles O1: both cases of `step`, on a queue that is given. -/
theorem stepTakesTheFrontCommand : Obligations.StepTakesTheFrontCommand := by
  refine fun s => ⟨fun c rest => rfl, fun hq => ?_⟩
  have hquiet : (s.setPending []).quiet = true := hq
  exact congrArg Host.Outcome.next (settle_of_quiet _ hquiet)

theorem reset_outputsFollow : State.reset.outputsFollow := by
  refine ⟨rfl, fun l => ?_⟩
  cases l <;> decide

theorem reset_hears (l : LinkId) (tag : Byte) (h : tag ≠ 0) : State.reset.hears l tag := by
  refine ⟨rfl, h, ?_⟩
  cases l <;> rfl

theorem reset_tableWhole : State.reset.tableWhole := by
  intro h
  have hlane : State.reset.lane h = Lane.powerOn := PerLane.get_all _ h
  rw [hlane]
  exact List.length_replicate

/-- Settles O12: block by block, at the values of power-on. -/
theorem resetMeetsTheInvariants : Obligations.ResetMeetsTheInvariants := by
  refine ⟨reset_outputsFollow, ⟨by decide, by simp [State.reset, State.powerOn]⟩, ⟨by decide, by decide, by decide,
    fun _ => rfl⟩, ?queue, reset_tableWhole, ?library, rfl, fun l tag h => ⟨reset_hears l tag h, reset_outputsFollow⟩⟩
  case queue => exact ⟨by decide, List.nodup_nil, [], [], rfl, by simp, by simp, by simp⟩
  case library => exact ⟨by decide, List.nodup_nil, by simp [State.reset, State.powerOn], List.Pairwise.nil⟩

end Sys2Proof.Machine
end

section
/-! SUPPORT. States field by field, and a request command as the request of its number. -/

namespace Sys2Proof.Machine

/-- Two states are equal when they agree in every field. -/
theorem State.eq_of_fields {s t : State} (hposition : s.position = t.position) (hqueue : s.queue = t.queue)
    (hring : s.ring = t.ring) (hbars : s.bars = t.bars) (hlanes : s.lanes = t.lanes) (hlists : s.lists = t.lists)
    (hlibrary : s.library = t.library) (hlinks : s.links = t.links) (hsent : s.sent = t.sent)
    (hfresh : s.fresh = t.fresh) (hpending : s.pending = t.pending) : s = t := by
  cases s
  cases t
  simp_all

/-- Families of links are equal when they agree at every link. -/
theorem links_eq_of_link {s t : State} (h : ∀ l, s.link l = t.link l) : s.links = t.links := PerLink.ext_get _ _ h

/-- A request command is the request of its number (R177). -/
theorem exec_of_requestOf {c : Instr} {l : LinkId} {tag : Byte} {n : Nat} {p : List Byte}
    (h : requestOf c = some (l, tag, n, p)) (s : State) : exec c s = .next (s.request l tag n (actOf n) p) := by
  cases c
  all_goals first
    | (cases h; rfl)
    | cases h

theorem definedNumber_of_requestOf {c : Instr} {l : LinkId} {tag : Byte} {n : Nat} {p : List Byte}
    (h : requestOf c = some (l, tag, n, p)) : definedNumber n = true := by
  cases c
  all_goals first
    | (cases h; rfl)
    | cases h

end Sys2Proof.Machine
end

section
/-! What follows every event: READY, ROOM and the attention outputs. -/

namespace Sys2Proof.Machine

/-- A bar has an ACTIVE lane when some lane is assigned to it and its head is ACTIVE. -/
theorem activeLanes_isEmpty_eq_false (s : State) (b : BarId) :
    (s.activeLanes b).isEmpty = false ↔ ∃ h x, (s.lane h).assign = some x ∧ x.bar = b ∧ (s.lane h).head = .active := by
  rw [List.isEmpty_eq_false_iff_exists_mem]
  refine exists_congr fun h => ?_
  rw [mem_activeLanes, State.IsActiveAt]
  constructor
  · rintro ⟨hhead, a, ha, hb⟩
    exact ⟨a, ha, hb, hhead⟩
  · rintro ⟨a, ha, hb, hhead⟩
    exact ⟨hhead, a, ha, hb⟩

/-- The three conditions of READY, in words (R43). -/
theorem readyCondition_iff (s : State) :
    s.readyCondition = true ↔ ∃ a, s.queue.pages.find? (·.state == .armed) = some a ∧
      (s.queue.readyMargin ≤ a.complete ∨ a.complete = a.rowCount) ∧
      ∀ b, a.progress.get b ≠ none → ∃ h x, (s.lane h).assign = some x ∧ x.bar = b ∧ (s.lane h).head = .active := by
  have hbars (a : Page) : (barIds.all fun b => !a.hasBar b || !(s.activeLanes b).isEmpty) = true ↔
      ∀ b, a.progress.get b ≠ none → ∃ h x, (s.lane h).assign = some x ∧ x.bar = b ∧ (s.lane h).head = .active := by
    rw [List.all_eq_true]
    refine ⟨fun h b hb => ?_, fun h b _ => ?_⟩
    · have hin := h b (by cases b <;> decide)
      rw [← activeLanes_isEmpty_eq_false]
      simpa [Page.hasBar, Option.isSome_iff_ne_none.2 hb] using hin
    · cases hb : a.progress.get b with
      | none => simp [Page.hasBar, hb]
      | some x =>
        have hactive := (activeLanes_isEmpty_eq_false s b).2 (h b (by simp [hb]))
        simp [hactive]
  unfold State.readyCondition State.armedPage
  cases s.queue.pages.find? (·.state == .armed) with
  | none => simp
  | some a => simp [hbars]

/-- An event moves READY and the links beside its effect, and nothing else. -/
theorem event_frame (f : State → State) (s : State) :
    event f s = ((f s).setQueue { (f s).queue with ready := (event f s).queue.ready }).setLinks (event f s).links := by
  refine State.eq_of_fields ?_ ?_ ?_ ?_ ?_ ?_ ?_ rfl ?_ ?_ ?_
  case refine_2 =>
    have h : (event f s).queue = ⟨(event f s).queue.pages, (event f s).queue.suppress,
      (event f s).queue.readyMargin, (event f s).queue.ready⟩ := rfl
    rw [h, event_pages, event_suppress, event_readyMargin]
    rfl
  all_goals simp

/-- Settles O10: the fields of `event_link` and `event_ready`, link by link. -/
theorem outputsFollowEveryEvent : Obligations.OutputsFollowEveryEvent := by
  intro f s u t
  have hready : t.queue.ready = u.readyCondition := event_ready f s
  have hlink : ∀ l, t.link l = _ := event_link f s
  refine ⟨?ready, ?motion, ?image, ?service, fun l => ?attn, fun l => ?frame, event_frame f s⟩
  case ready => rw [hready, readyCondition_iff]
  case motion =>
    rw [hlink, hready]
    by_cases h : u.queue.ready = u.readyCondition
    · simp [u, show (f s).queue.ready = (f s).readyCondition from h]
    · have h : (f s).queue.ready ≠ (f s).readyCondition := h
      simp [u, flagBit, h, h.symm]
  case image =>
    rw [hlink]
    simp only [u, reduceCtorEq, and_false, if_false, and_true]
    split <;> simp [flagBit]
  case service => simp [hlink, u]
  case attn =>
    rw [hlink]
    simp [Link.attention]
  case frame =>
    rw [hlink]

end Sys2Proof.Machine
end

section
/-! Checks 1 to 4 of R173, for every request and for a number that names none. -/

namespace Sys2Proof.Machine

/-- The links' rights are those of the request summary (R177). -/
theorem permitted_eq_numbersOf (l : LinkId) {n : Nat} (h : definedNumber n = true) :
    permitted n l = decide (n ∈ numbersOf l) := by
  have hn : n < 40 := by
    simp [definedNumber] at h
    omega
  have all : ∀ l : LinkId, ∀ n < 40, definedNumber n = true → permitted n l = decide (n ∈ numbersOf l) := by
    intro l
    cases l <;> decide
  exact all l n hn h

theorem blocks_of_answersBusy {n : Nat} : ∀ {x : Option InProgress}, AnswersBusy n x → blocks n x = true
  | some (.waiting _ _), ⟨h, k⟩ => by simp [blocks, h, k]
  | some (.rowput ..), h => bne_iff_ne.2 h
  | some (.scan ..), h => bne_iff_ne.2 h

theorem turnedAway_notPermitted {s : State} {l : LinkId} {tag : Byte} {n : Nat} (ht : tag ≠ 0)
    (hn : definedNumber n = true) (hp : n ∉ numbersOf l) : s.turnedAway l tag n = some .notPermitted := by
  rw [State.turnedAway, if_neg ht]
  simp [hn, permitted_eq_numbersOf l hn, hp]

theorem turnedAway_busy {s : State} {l : LinkId} {tag : Byte} {n : Nat} (ht : tag ≠ 0) (hn : definedNumber n = true)
    (hp : n ∈ numbersOf l) (hb : AnswersBusy n (s.link l).busy) : s.turnedAway l tag n = some .busy := by
  rw [State.turnedAway, if_neg ht]
  simp [hn, permitted_eq_numbersOf l hn, hp, blocks_of_answersBusy hb]

theorem turnedAway_unknown {s : State} {l : LinkId} {tag : Byte} {n : Nat} (ht : tag ≠ 0)
    (hn : definedNumber n = false) : s.turnedAway l tag n = some .unknown := by
  rw [State.turnedAway, if_neg ht]
  simp [hn]

theorem be8_toNat (b : Byte) : be8 b.toNat = b := BitVec.ofNat_toNat 8 b

/-- UNKNOWN is the taking of its packet, under its number. -/
theorem exec_unknown (l : LinkId) (tag n : Byte) (p : List Byte) (s : State) :
    exec (.unknown l tag n p) s = .next (s.request l tag n.toNat (actOf n.toNat) p) := by
  rw [State.request, be8_toNat]
  rfl

/-- Settles O4: the four checks, in order, of `State.turnedAway`. -/
theorem requestsTurnedAway : Obligations.RequestsTurnedAway := by
  intro s hq ho
  refine ⟨fun c l tag n p hc => ?_, fun l tag n p hn => ?_⟩
  · have hdef := definedNumber_of_requestOf hc
    have refused {st} (h : s.turnedAway l tag n = some st) : Refuses c s l tag st :=
      (exec_of_requestOf hc s).trans (congrArg _ (request_turnedAway s l tag n _ p st hq ho h))
    refine ⟨?_, fun ht hp => refused (turnedAway_notPermitted ht hdef hp),
      fun ht hp hb => refused (turnedAway_busy ht hdef hp hb)⟩
    rintro rfl
    exact refused (turnedAway_of_tag_zero s l n)
  · have refused {st} (h : s.turnedAway l tag n.toNat = some st) : Refuses (.unknown l tag n p) s l tag st :=
      (exec_unknown l tag n p s).trans (congrArg _ (request_turnedAway s l tag n.toNat _ p st hq ho h))
    have hundefined : definedNumber n.toNat = false := by
      simp [definedNumber]
      omega
    refine ⟨?_, fun ht => refused (turnedAway_unknown ht hundefined)⟩
    rintro rfl
    exact refused (turnedAway_of_tag_zero s l n.toNat)

end Sys2Proof.Machine
end

section
/-! SUPPORT. What is raised and undelivered: what settles it leaves nothing raised, and settling twice is settling once
(log 3, 4, 5). -/

namespace Sys2Proof.Machine

/-! ### The parts of settling -/

theorem settleTick_of_not_raised {s : State} (h : s.position.tickRaised = false) : s.settleTick = s := by
  simp [State.settleTick, h]

theorem settleAuto_of_not_raised {s : State} (h : s.position.autoRaised = false) : s.settleAuto = s := by
  simp [State.settleAuto, h]

theorem lineTick_tickRaised (s : State) : s.lineTick.position.tickRaised = false :=
  (Acts.tickWork (.refl _)).raised.tick

theorem autoTrigger_raised (s : State) :
    s.autoTrigger.position.tickRaised = s.position.tickRaised ∧ s.autoTrigger.position.autoRaised = false :=
  ⟨(Acts.offer (.refl _)).raised.tick, (Acts.offer (.refl _)).raised.auto⟩

theorem settleTick_tickRaised (s : State) : s.settleTick.position.tickRaised = false := by
  unfold State.settleTick
  split
  next => rw [event_position, lineTick_tickRaised]
  next h => simpa using h

theorem settleAuto_raised (s : State) :
    s.settleAuto.position.tickRaised = s.position.tickRaised ∧ s.settleAuto.position.autoRaised = false := by
  unfold State.settleAuto
  split
  next => rw [event_position]; exact autoTrigger_raised s
  next h => simpa using h

/-- What the check of a packet, or its discard, leaves raised is what was raised. -/
theorem settleLink_raised (s : State) (l : LinkId) : SameRaised s (s.settleLink l) := by
  unfold State.settleLink
  split
  · exact .of_eq rfl rfl
  · split
    · exact (Acts.event (Acts.discardPacket (.refl s))).raised
    · exact .of_eq rfl rfl
  · exact (Acts.event (Acts.checkPacket s)).raised

/-! ### Assemblers -/

theorem idleAssembler_assembler (s : State) (l : LinkId) : ((s.idleAssembler l).link l).assembler = .idle := by
  rw [idleAssembler_link, if_pos rfl]

/-- A link whose assembler is IDLE keeps it so in what follows. -/
theorem SameRaised.idle {s t : State} {l : LinkId} (k : SameRaised s t) (h : (s.link l).assembler = .idle) :
    (t.link l).assembler = .idle :=
  (k.assembler l).elim (fun e => e.trans h) id

theorem checkPacket_assembler (s : State) (l : LinkId) (bytes : List Byte) :
    ((s.checkPacket l bytes).link l).assembler = .idle := by
  have hbad : ((s.badCheck l).link l).assembler = .idle := by
    have h := modLink_link_same s l fun k => { k with assembler := .idle, badCheck := satAdd max16 k.badCheck 1 }
    exact congrArg Link.assembler h
  unfold State.checkPacket
  split
  · split
    · unfold State.takePacket State.take
      split
      · exact idleAssembler_assembler s l
      · exact (Acts.actOf _ _ l _ _).raised.idle (idleAssembler_assembler s l)
    · exact hbad
  · exact hbad

theorem quiet_of_idle {k : Link} (h : k.assembler = .idle) : k.quiet = true := by
  simp [Link.quiet, h]

/-- A link whose packet has been settled is quiet. -/
theorem settleLink_quiet (s : State) (l : LinkId) : ((s.settleLink l).link l).quiet = true := by
  unfold State.settleLink
  split
  next h => exact quiet_of_idle h
  next bytes h =>
    split
    · refine quiet_of_idle ?_
      rw [event_link]
      exact congrArg Link.assembler (modLink_link_same s l _)
    next ho => simpa [Link.quiet, h] using ho
  next bytes h =>
    refine quiet_of_idle ?_
    rw [event_link]
    exact checkPacket_assembler s l bytes

theorem SameRaised.quiet {s t : State} {l : LinkId} (k : SameRaised s t) (h : (s.link l).quiet = true) :
    (t.link l).quiet = true := by
  rcases k.assembler l with he | he
  · rwa [Link.quiet, he]
  · exact quiet_of_idle he

/-! ### Settling -/

/-- The packets of the three links, in order. -/
def State.settleLinks (s : State) : State := ((s.settleLink .image).settleLink .motion).settleLink .service

theorem settle_eq (s : State) : s.settle = s.settleTick.settleAuto.settleLinks := rfl

theorem settleLinks_raised (s : State) : SameRaised s s.settleLinks :=
  ((settleLink_raised s .image).trans (settleLink_raised _ .motion)).trans (settleLink_raised _ .service)

theorem settleLinks_quiet (s : State) : ∀ l, (s.settleLinks.link l).quiet = true
  | .image => (settleLink_raised _ .service).quiet ((settleLink_raised _ .motion).quiet (settleLink_quiet s .image))
  | .motion => (settleLink_raised _ .service).quiet (settleLink_quiet _ .motion)
  | .service => settleLink_quiet _ .service

/-- Once everything raised has taken place, nothing is raised. -/
theorem settle_quiet (s : State) : s.settle.quiet = true := by
  have hlinks := settleLinks_raised s.settleTick.settleAuto
  obtain ⟨htick, hauto⟩ := settleAuto_raised s.settleTick
  refine (quiet_iff _).2 ⟨?_, ?_, settleLinks_quiet _⟩
  · exact hlinks.tick.trans (htick.trans (settleTick_tickRaised s))
  · exact hlinks.auto.trans hauto

theorem settle_settle (s : State) : s.settle.settle = s.settle := settle_of_quiet _ (settle_quiet s)

end Sys2Proof.Machine
end

section
/-! Every command answers a next state, and acts where everything raised before it has taken place. -/

namespace Sys2Proof.Machine

theorem claim_of_not_mine {s : State} {l : LinkId} {mine : Assembler → Bool}
    (h : mine (s.link l).assembler = false) : s.claim l mine = s := by
  simp [State.claim, h]

theorem claim_of_mine {s : State} {l : LinkId} {mine : Assembler → Bool}
    (h : mine (s.link l).assembler = true) : s.claim l mine = s.idleAssembler l := by
  simp [State.claim, h]

theorem after_settle (f : State → State) (s : State) : s.settle.after f = s.after f := by
  rw [State.after, State.after, settle_settle]

/-- A command that claims no packet acts on the settled state as on the state before. -/
theorem claim_after_settle {s : State} {l : LinkId} {mine : Assembler → Bool} (f : State → State)
    (hs : mine (s.link l).assembler = false) (hm : ∀ bs, overlong bs = false → mine (.receiving bs) = false)
    (hi : mine .idle = false) : (s.settle.claim l mine).after f = (s.claim l mine).after f := by
  rw [claim_of_quiet _ l mine (settle_quiet s) hm hi, claim_of_not_mine hs, after_settle]

theorem request_settle {s : State} {l : LinkId} {tag : Byte} {n : Nat} {act : Act} {p : List Byte}
    (h : (s.link l).assembler ≠ .checking (packetBody tag (be8 n) p)) :
    s.settle.request l tag n act p = s.request l tag n act p :=
  claim_after_settle _ (beq_eq_false_iff_ne.2 h) (fun _ _ => rfl) rfl

theorem exec_settle_of_request {c : Instr} {l : LinkId} {tag : Byte} {n : Nat} {p : List Byte}
    (hc : requestOf c = some (l, tag, n, p)) {s : State}
    (h : (s.link l).assembler ≠ .checking (packetBody tag (be8 n) p)) : exec c s = exec c s.settle := by
  rw [exec_of_requestOf hc, exec_of_requestOf hc, request_settle h]

/-- A command that delivers nothing raised itself acts where everything raised has taken place. -/
theorem exec_settle {c : Instr} {s : State} (h : ¬Delivers c s) : exec c s = exec c s.settle := by
  have waits (f : State → State) : Host.Outcome.next (φ := Fault) (ρ := Refusal) (s.after f) = .next (s.settle.after f) :=
    congrArg _ (after_settle f s).symm
  cases c
  case badCheck l =>
    exact congrArg Host.Outcome.next (claim_after_settle _ (by simpa [Delivers] using h) (fun _ _ => rfl) rfl).symm
  case packetLengthDiscard l =>
    exact congrArg Host.Outcome.next (claim_after_settle _ (by simpa [Delivers] using h) (fun _ h => h) rfl).symm
  case unknown l tag n p =>
    rw [exec_unknown, exec_unknown, request_settle]
    rw [be8_toNat]
    exact h
  case lineTick =>
    have hs : s.position.tickRaised = false := by simpa [Delivers] using h
    have ht : s.settle.position.tickRaised = false := ((quiet_iff _).1 (settle_quiet s)).1
    simp [exec, execLineTick, hs, ht, settle_settle]
  case automaticTrigger =>
    have hs : s.settleTick.position.autoRaised = false := by simpa [Delivers] using h
    obtain ⟨ht, ha, _⟩ := (quiet_iff _).1 (settle_quiet s)
    simp [exec, execAutomaticTrigger, hs, settleTick_of_not_raised ht, ha, settle_settle]
  case powerOn => exact absurd trivial h
  case packetInactivityTimeout => exact waits _
  case encoderEdge => exact waits _
  case pdetRisingEdge => exact waits _
  case warmTimerExpiry => exact waits _
  case settleTimerExpiry => exact waits _
  case retryTimerExpiry => exact waits _
  case slewTimerExpiry => exact waits _
  case identifyAnswer => exact waits _
  case identifyTimeout => exact waits _
  case loadReply => exact waits _
  case loadReplyTimeout => exact waits _
  case fireComplete => exact waits _
  case loadSend => exact waits _
  case rowStoreGrant => exact waits _
  case rowStoreReadDone => exact waits _
  case rowputWriteComplete => exact waits _
  case packetByte => exact waits _
  all_goals exact exec_settle_of_request rfl h

/-! ### The packet of a request -/

theorem goodCheck_append (bytes : List Byte) : goodCheck (bytes ++ [crc8 bytes]) = true := by
  simp [goodCheck]

theorem goodCheck_packetBody (tag number : Byte) (p : List Byte) : goodCheck (packetBody tag number p) = true :=
  goodCheck_append _

/-- The check of a request's own packet is the taking of the request (R173). -/
theorem checkPacket_packetBody (s : State) (l : LinkId) (tag number : Byte) (p : List Byte) :
    s.checkPacket l (packetBody tag number p) = s.takePacket l tag number.toNat p := by
  have hgood := goodCheck_packetBody tag number p
  have hbytes : packetBody tag number p = tag :: be8 (p.length / 256) :: be8 p.length :: number ::
      (p ++ [crc8 (tag :: (be16 p.length ++ number :: p))]) := rfl
  rw [hbytes] at hgood ⊢
  simp only [State.checkPacket, hgood, if_true, List.dropLast_concat]

theorem number_toNat_of_requestOf {c : Instr} {l : LinkId} {tag : Byte} {n : Nat} {p : List Byte}
    (h : requestOf c = some (l, tag, n, p)) : (be8 n).toNat = n := by
  have hn := definedNumber_of_requestOf h
  simp only [definedNumber, Bool.or_eq_true, Bool.and_eq_true, decide_eq_true_eq] at hn
  simp only [be8, BitVec.toNat_ofNat]
  omega

theorem idleAssembler_idleAssembler (s : State) (l : LinkId) :
    (s.idleAssembler l).idleAssembler l = s.idleAssembler l := by
  cases l <;> rfl

theorem idleAssembler_link_ne (s : State) {l m : LinkId} (h : m ≠ l) : (s.idleAssembler l).link m = s.link m := by
  rw [idleAssembler_link, if_neg h]

/-- Where one link alone holds something due, settling is settling that link. -/
theorem settle_of_quietBut {s : State} {l : LinkId} (h : s.quietBut l) : s.settle = s.settleLink l := by
  obtain ⟨htick, hauto, hlinks⟩ := (quiet_iff _).1 h
  have hother {m : LinkId} (hm : m ≠ l) : (s.link m).quiet = true := by
    have := hlinks m
    rwa [idleAssembler_link_ne s hm] at this
  have hkeep {m : LinkId} (hm : m ≠ l) : ((s.settleLink l).link m).quiet = true :=
    (settleLink_raised s l).quiet (hother hm)
  rw [settle_eq, settleTick_of_not_raised (s := s) htick, settleAuto_of_not_raised (s := s) hauto, State.settleLinks]
  cases l
  case image => rw [settleLink_of_quiet _ .motion (hkeep (by decide)), settleLink_of_quiet _ .service (hkeep (by decide))]
  case motion => rw [settleLink_of_quiet s .image (hother (by decide)), settleLink_of_quiet _ .service (hkeep (by decide))]
  case service =>
    rw [settleLink_of_quiet s .image (hother (by decide)), settleLink_of_quiet s .motion (hother (by decide))]

/-- Settles O2: a command is a chain of events, and settling leaves nothing to settle. -/
theorem everyCommandCompletes : Obligations.EveryCommandCompletes := by
  refine ⟨fun c s => ?_, fun c s h => exec_settle h, fun c s l tag n p hc hl => ⟨?_, fun hq => ?_⟩, fun s => ⟨settle_quiet s,
    settle_of_quiet s, fun ht t he => ?_, fun ht ha t he => ?_, fun ht ha => ?_⟩⟩
  · cases c <;> exact ⟨_, rfl⟩
  · rw [exec_of_requestOf hc, exec_of_requestOf hc]
    have hmine : (fun x => x == Assembler.checking (packetBody tag (be8 n) p)) (s.link l).assembler = true :=
      beq_iff_eq.2 hl
    have hidle : (fun x => x == Assembler.checking (packetBody tag (be8 n) p))
        ((s.idleAssembler l).link l).assembler = false := by
      rw [idleAssembler_assembler]
      rfl
    rw [State.request, State.request, claim_of_mine hmine, claim_of_not_mine hidle]
  · have hsettle : s.settle = event (·.takePacket l tag n p) s := by
      rw [settle_of_quietBut hq, State.settleLink, hl]
      exact event_congr ((checkPacket_packetBody s l tag _ p).trans (by
        have hn := number_toNat_of_requestOf hc
        rw [be8] at hn
        rw [hn]))
    rw [exec_of_requestOf hc, request_of_quiet _ l tag n _ p hq, hsettle]
    simp only [event, idleAssembler_idleAssembler]
    rfl
  · obtain rfl := Host.Outcome.next.inj he
    rw [if_pos ht, settle_eq, settle_eq, settleTick_of_not_raised (s := event State.lineTick s), State.settleTick, if_pos ht]
    rw [event_position]
    exact lineTick_tickRaised s
  · obtain rfl := Host.Outcome.next.inj he
    have hst := settleTick_of_not_raised ht
    have htick : (event State.autoTrigger s).position.tickRaised = false := by
      rw [event_position, (autoTrigger_raised s).1, ht]
    have hauto : (event State.autoTrigger s).position.autoRaised = false := by
      rw [event_position, (autoTrigger_raised s).2]
    rw [hst, if_pos ha, settle_eq, settle_eq, hst, settleTick_of_not_raised htick, settleAuto_of_not_raised hauto,
      State.settleAuto, if_pos ha]
  · rw [settle_eq, settleTick_of_not_raised ht, settleAuto_of_not_raised ha, State.settleLinks]

end Sys2Proof.Machine
end

section
/-! SUPPORT. Changes of a link's assembler, counters and request in progress: no output moves with them. -/

namespace Sys2Proof.Machine

/-- A change of a link that leaves its flags, mask and attention output. -/
def KeepsAttention (f : Link → Link) : Prop := ∀ k, (f k).attn = k.attn ∧ (f k).flags = k.flags ∧ (f k).mask = k.mask

theorem modLink_outputsFollow {s : State} (l : LinkId) {f : Link → Link} (hf : KeepsAttention f) (h : s.outputsFollow) :
    (s.modLink l f).outputsFollow := by
  refine outputsFollow_congr s _ h rfl rfl fun m => ?_
  by_cases hm : m = l
  · subst hm
    rw [modLink_link_same]
    exact hf _
  · rw [modLink_link_ne _ _ hm]
    exact ⟨rfl, rfl, rfl⟩

/-- An event whose effect is such a change is that change. -/
theorem event_of_modLink {s : State} (l : LinkId) {e : State → State} {f : Link → Link} (hf : KeepsAttention f)
    (h : s.outputsFollow) (he : e s = s.modLink l f) : event e s = s.modLink l f := by
  rw [event_eq_self e s (by rw [he]; exact modLink_outputsFollow l hf h) (by rw [he]; rfl), he]

theorem modLink_eq_self {s : State} {l : LinkId} {f : Link → Link} (h : f (s.link l) = s.link l) : s.modLink l f = s := by
  rw [State.modLink, h, State.link, PerLink.set_get_self]
  rfl

/-- What a change of one link reads of it is all that matters. -/
theorem modLink_congr {s : State} {l : LinkId} {f g : Link → Link} (h : f (s.link l) = g (s.link l)) :
    s.modLink l f = s.modLink l g := by
  rw [State.modLink, State.modLink, h]

theorem idleAssembler_of_idle {s : State} {l : LinkId} (h : (s.link l).assembler = .idle) : s.idleAssembler l = s :=
  modLink_eq_self (by rw [← h])

end Sys2Proof.Machine
end

section
/-! The packet assembler: bytes, wrong checks and discards. -/

namespace Sys2Proof.Machine

/-! ### A byte (R172) -/

/-- What a byte makes of a packet being received: CHECKING at the check byte, else RECEIVING (R172). -/
theorem collected_eq (bytes : List Byte) :
    collected bytes =
      if 3 ≤ bytes.length ∧ wordAt bytes 1 ≤ 1040 ∧ bytes.length = wordAt bytes 1 + 5 then .checking bytes
      else .receiving bytes := by
  rcases bytes with _ | ⟨tag, _ | ⟨hi, _ | ⟨lo, rest⟩⟩⟩
  case cons.cons.cons =>
    have hword : u16 hi lo = wordAt (tag :: hi :: lo :: rest) 1 := by simp [wordAt, u16, Nat.mul_comm]
    simp only [collected, hword, Config.maxPayload]
    refine if_congr ?_ rfl rfl
    simp
  all_goals simp [collected]

theorem exec_packetByte {s : State} (l : LinkId) (b : Byte) (hq : s.quiet = true) (ho : s.outputsFollow) :
    exec (.packetByte l b) s = .next (s.modLink l fun k => { k with assembler := (s.link l).assembler.byte b }) := by
  have hc : exec (.packetByte l b) s = .next (s.after (·.packetByte l b)) := rfl
  rw [hc, after_of_quiet _ s hq]
  exact congrArg _ (event_of_modLink l (fun _ => ⟨rfl, rfl, rfl⟩) ho rfl)

/-! ### A wrong check, a discard (R172, R173) -/

/-- A packet with a wrong check byte: what its link is left with. -/
def Link.badChecked (k : Link) : Link := { k with assembler := .idle, badCheck := min 65535 (k.badCheck + 1) }

/-- A packet discarded: what its link is left with. -/
def Link.gone (k : Link) : Link := { k with assembler := .idle, discarded := min 65535 (k.discarded + 1) }

theorem event_badCheck {s : State} (l : LinkId) (ho : s.outputsFollow) :
    event (·.badCheck l) s = (s.modLink l Link.badChecked).reply l 0 .badCheck [] :=
  event_eq_self _ s (reply_outputsFollow l 0 .badCheck []
    (modLink_outputsFollow (f := Link.badChecked) l (fun _ => ⟨rfl, rfl, rfl⟩) ho)) rfl

theorem event_discardPacket {s : State} (l : LinkId) (ho : s.outputsFollow) :
    event (·.discardPacket l) s = s.modLink l Link.gone :=
  event_of_modLink l (fun _ => ⟨rfl, rfl, rfl⟩) ho rfl

theorem idleAssembler_badChecked (s : State) (l : LinkId) :
    (s.idleAssembler l).modLink l Link.badChecked = s.modLink l Link.badChecked := modLink_idleAssembler s l _

theorem idleAssembler_gone (s : State) (l : LinkId) :
    (s.idleAssembler l).modLink l Link.gone = s.modLink l Link.gone := modLink_idleAssembler s l _

/-- BAD_CHECK, with nothing due on another link: of the packet its link is checking, or of one that stands for itself. -/
theorem exec_badCheck {s : State} (l : LinkId) (hq : s.quietBut l) (ho : s.outputsFollow)
    (h : s.quiet = true ∨ (s.link l).assembler.isBad = true) :
    exec (.badCheck l) s = .next ((s.modLink l Link.badChecked).reply l 0 .badCheck []) := by
  have hc : exec (.badCheck l) s = .next ((s.claim l Assembler.isBad).after (·.badCheck l)) := rfl
  rw [hc]
  rcases h with h | h
  · rw [claim_of_quiet s l _ h (fun _ _ => rfl) rfl, after_of_quiet _ s h, event_badCheck l ho]
  · rw [claim_of_mine h, after_of_quiet _ _ hq, event_badCheck l (idleAssembler_outputsFollow s l ho),
      idleAssembler_badChecked]

/-- PACKET_LENGTH_DISCARD, likewise. -/
theorem exec_packetLengthDiscard {s : State} (l : LinkId) (hq : s.quietBut l) (ho : s.outputsFollow)
    (h : s.quiet = true ∨ (s.link l).assembler.isOverlong = true) :
    exec (.packetLengthDiscard l) s = .next (s.modLink l Link.gone) := by
  have hc : exec (.packetLengthDiscard l) s = .next ((s.claim l Assembler.isOverlong).after (·.discardPacket l)) := rfl
  rw [hc]
  rcases h with h | h
  · rw [claim_of_quiet s l _ h (fun _ h => h) rfl, after_of_quiet _ s h, event_discardPacket l ho]
  · rw [claim_of_mine h, after_of_quiet _ _ hq, event_discardPacket l (idleAssembler_outputsFollow s l ho),
      idleAssembler_gone]

/-- The third byte of a length above 1040 is acted on at the next step (log 5). -/
theorem settle_of_overlong {s : State} {l : LinkId} {bytes : List Byte} (hq : s.quietBut l) (ho : s.outputsFollow)
    (hl : (s.link l).assembler = .receiving bytes) (hlong : overlong bytes = true) : s.settle = s.modLink l Link.gone := by
  rw [settle_of_quietBut hq, State.settleLink, hl]
  simp only [hlong, if_true]
  exact event_discardPacket l ho

theorem quietBut_of_quiet {s : State} {l : LinkId} (h : s.quiet = true) : s.quietBut l := by
  obtain ⟨htick, hauto, hlinks⟩ := (quiet_iff s).1 h
  refine (quiet_iff _).2 ⟨htick, hauto, fun m => ?_⟩
  rw [idleAssembler_link]
  split
  · rfl
  · exact hlinks m

theorem exec_packetInactivityTimeout {s : State} (l : LinkId) (hq : s.quiet = true) :
    exec (.packetInactivityTimeout l) s = .next (event (·.inactivity l) s) := by
  have hc : exec (.packetInactivityTimeout l) s = .next (s.after (·.inactivity l)) := rfl
  rw [hc, after_of_quiet _ s hq]

/-- Settles O5: the assembler's transitions on a byte, and the three ways a packet is lost. -/
theorem packetsAreAssembledCheckedAndDiscarded : Obligations.PacketsAreAssembledCheckedAndDiscarded := by
  refine ⟨fun s l b hq ho => ?bytes, fun s l hq ho h => ?badCheck, fun s l ho => ?discard⟩
  case bytes =>
    refine ⟨fun hl hb => ?_, fun hl hb => ?_, fun bytes hl => ⟨fun hw => ?_, fun hw => ?_⟩⟩
    all_goals rw [exec_packetByte l b hq ho, hl]
    · simp only [Assembler.byte, hb, if_true]
    · simp only [Assembler.byte, hb, if_false]
      exact congrArg _ (modLink_eq_self (by rw [← hl]))
    · simp only [Assembler.byte, collected_eq, if_pos hw]
    · simp only [Assembler.byte, collected_eq, if_neg hw]
  case badCheck =>
    refine exec_badCheck l hq ho (h.imp_right ?_)
    rintro ⟨bytes, hl, hbad⟩
    simp [hl, Assembler.isBad, goodCheck, hbad]
  case discard =>
    refine ⟨fun hq => exec_packetLengthDiscard l (quietBut_of_quiet hq) ho (.inl hq), fun tag hi lo hq hl hlong => ?_,
      fun bytes hq hl => ?_, fun hq hl => ?_⟩
    · have hover : overlong [tag, hi, lo] = true := decide_eq_true hlong
      refine ⟨exec_packetLengthDiscard l hq ho (.inr (by rw [hl]; exact hover)), fun hp => ?_⟩
      have hstep : step s = .next s.settle := by simp only [step, hp]
      rw [hstep, settle_of_overlong hq ho hl hover]
      rfl
    · rw [exec_packetInactivityTimeout l hq, event_congr (g := (·.discardPacket l)), event_discardPacket l ho]
      · rfl
      · simp only [State.inactivity, hl]
    · rw [exec_packetInactivityTimeout l hq, event_congr (g := id), event_eq_self _ s ho rfl]
      · rfl
      · simp only [State.inactivity, hl, id]

end Sys2Proof.Machine
end

section
/-! The bytes of a request's packet, one by one, are the request. -/

namespace Sys2Proof.Machine

/-! ### Runs -/

theorem run_succ {k : Nat} {s t : State} (h : step s = .next t) : Sys2Proof.core.run (k + 1) s = Sys2Proof.core.run k t := by
  have hs : Sys2Proof.core.step s = .next t := h
  simp only [Host.Core.run, hs]

theorem run_one (s : State) : Sys2Proof.core.run 1 s = step s := by
  have hs : Sys2Proof.core.step s = step s := rfl
  simp only [Host.Core.run, hs]
  cases step s <;> rfl

/-! ### The bytes of a packet -/

theorem be16_toNat {n : Nat} (h : n < 65536) : u16 (be8 (n / 256)) (be8 n) = n := by
  simp only [u16, be8, BitVec.toNat_ofNat]
  omega

theorem packetBody_length (tag number : Byte) (p : List Byte) : (packetBody tag number p).length = p.length + 5 := by
  simp [packetBody, be16]

/-- A beginning of a packet of three bytes or more holds the packet's length field. -/
theorem take_packetBody {tag number : Byte} {p start rest : List Byte} (h : start ++ rest = packetBody tag number p)
    (hlen : 3 ≤ start.length) : ∃ more, start = tag :: be8 (p.length / 256) :: be8 p.length :: more := by
  rcases start with _ | ⟨x, _ | ⟨y, _ | ⟨z, more⟩⟩⟩
  case cons.cons.cons =>
    simp only [packetBody, be16, List.cons_append, List.nil_append, List.cons.injEq] at h
    obtain ⟨rfl, rfl, rfl, _⟩ := h
    exact ⟨more, rfl⟩
  all_goals simp at hlen

theorem overlong_of_packetBody {tag number : Byte} {p start rest : List Byte}
    (h : start ++ rest = packetBody tag number p) (hp : p.length ≤ 1040) : overlong start = false := by
  by_cases h3 : 3 ≤ start.length
  · obtain ⟨more, rfl⟩ := take_packetBody h h3
    cases more with
    | nil =>
      simp only [overlong, be16_toNat (show p.length < 65536 by omega), Config.maxPayload, decide_eq_false_iff_not]
      omega
    | cons => rfl
  · rcases start with _ | ⟨_, _ | ⟨_, _ | _⟩⟩
    all_goals first
      | rfl
      | simp at h3

/-- A byte of a packet leaves its assembler RECEIVING, the last one CHECKING (R172). -/
theorem collected_packetBody {tag number : Byte} {p start rest : List Byte}
    (h : start ++ rest = packetBody tag number p) (hp : p.length ≤ 1040) :
    collected start = if rest = [] then .checking start else .receiving start := by
  have hlen : start.length + rest.length = p.length + 5 := by
    rw [← List.length_append, h, packetBody_length]
  rw [collected_eq]
  refine if_congr ?_ rfl rfl
  constructor
  · rintro ⟨h3, -, hwhole⟩
    obtain ⟨more, rfl⟩ := take_packetBody h h3
    have hword : wordAt (tag :: be8 (p.length / 256) :: be8 p.length :: more) 1 = p.length := by
      simpa [wordAt, u16, Nat.mul_comm] using be16_toNat (show p.length < 65536 by omega)
    exact List.length_eq_zero_iff.1 (by omega)
  · rintro rfl
    have h3 : 3 ≤ start.length := by simp at hlen; omega
    obtain ⟨more, rfl⟩ := take_packetBody h h3
    have hword : wordAt (tag :: be8 (p.length / 256) :: be8 p.length :: more) 1 = p.length := by
      simpa [wordAt, u16, Nat.mul_comm] using be16_toNat (show p.length < 65536 by omega)
    rw [hword]
    simp at hlen
    exact ⟨h3, hp, by simpa using hlen⟩

/-! ### Feeding the bytes -/

/-- A state with one link's assembler set. -/
def State.assembling (s : State) (l : LinkId) (x : Assembler) : State := s.modLink l fun k => { k with assembler := x }

theorem assembling_assembler (s : State) (l : LinkId) (x : Assembler) : ((s.assembling l x).link l).assembler = x :=
  congrArg Link.assembler (modLink_link_same s l _)

theorem assembling_assembling (s : State) (l : LinkId) (x y : Assembler) :
    (s.assembling l x).assembling l y = s.assembling l y := by
  cases l <;> rfl

theorem assembling_outputsFollow {s : State} (l : LinkId) (x : Assembler) (h : s.outputsFollow) :
    (s.assembling l x).outputsFollow := modLink_outputsFollow l (fun _ => ⟨rfl, rfl, rfl⟩) h

theorem assembling_quiet {s : State} {l : LinkId} {bytes : List Byte} (h : s.quietBut l) (hb : overlong bytes = false) :
    (s.assembling l (.receiving bytes)).quiet = true := by
  obtain ⟨htick, hauto, hlinks⟩ := (quiet_iff _).1 h
  refine (quiet_iff _).2 ⟨htick, hauto, fun m => ?_⟩
  by_cases hm : m = l
  · subst hm
    rw [Link.quiet, assembling_assembler]
    simp [hb]
  · have hk := hlinks m
    rw [idleAssembler_link_ne s hm] at hk
    rwa [State.assembling, modLink_link_ne _ _ hm]

/-- A step that takes a byte of a packet being received. -/
theorem step_packetByte {s : State} {l : LinkId} {b : Byte} {cs : List Instr} {x : Assembler}
    (hq : (s.assembling l x).quiet = true) (ho : s.outputsFollow) :
    step ((s.assembling l x).setPending (.packetByte l b :: cs)) = .next ((s.assembling l (x.byte b)).setPending cs) := by
  have ho' : ((s.assembling l x).setPending cs).outputsFollow := assembling_outputsFollow l x ho
  have h := exec_packetByte (s := (s.assembling l x).setPending cs) l b hq ho'
  refine (show _ = exec _ _ from rfl).trans (h.trans (congrArg _ ?_))
  have hx : (((s.assembling l x).setPending cs).link l).assembler = x := assembling_assembler s l x
  rw [hx]
  exact congrArg (·.setPending cs) (assembling_assembling s l x (x.byte b))

/-- The rest of a packet's bytes bring its assembler to CHECKING, and no command between them is anything else. -/
theorem run_packetBytes {s : State} {l : LinkId} {tag number : Byte} {p : List Byte} (hp : p.length ≤ 1040)
    (hq : s.quietBut l) (ho : s.outputsFollow) (cs : List Instr) (k : Nat) :
    ∀ (rest start : List Byte), start ++ rest = packetBody tag number p → rest ≠ [] →
      Sys2Proof.core.run (rest.length + k)
          ((s.assembling l (.receiving start)).setPending (rest.map (Instr.packetByte l) ++ cs)) =
        Sys2Proof.core.run k ((s.assembling l (.checking (packetBody tag number p))).setPending cs)
  | [], _, _, hne => absurd rfl hne
  | b :: rest, start, h, _ => by
    have hnext : (start ++ [b]) ++ rest = packetBody tag number p := by simpa using h
    have hbyte : Assembler.byte (.receiving start) b = if rest = [] then .checking (start ++ [b]) else .receiving (start ++ [b]) :=
      collected_packetBody hnext hp
    have hstep := step_packetByte (b := b) (cs := rest.map (Instr.packetByte l) ++ cs)
      (assembling_quiet hq (overlong_of_packetBody h hp)) ho
    have hlen : (b :: rest).length + k = (rest.length + k) + 1 := by simp only [List.length_cons]; omega
    rw [hlen, List.map_cons, List.cons_append, run_succ hstep, hbyte]
    by_cases hr : rest = []
    · subst hr
      rw [if_pos rfl, ← hnext, List.append_nil]
      simp
    · rw [if_neg hr]
      exact run_packetBytes hp hq ho cs k rest _ hnext hr

/-- Settles O6: the bytes bring the packet to its check, which the next step, or the request's own command, takes. -/
theorem packetBytesAreTheRequest : Obligations.PacketBytesAreTheRequest := by
  intro c l tag n p s hc hp hq ho hpending hidle bytes
  let body := packetBody tag (BitVec.ofNat 8 n) p
  let u := s.assembling l (.checking body)
  have hs : s.assembling l .idle = s := idleAssembler_of_idle hidle
  have hu : u.idleAssembler l = s := (assembling_assembling s l _ .idle).trans hs
  have hbody : body ≠ [] := List.ne_nil_of_length_pos (by
    rw [packetBody_length]
    omega)
  have feed (cs : List Instr) : Sys2Proof.core.run (bytes.length + 1) (s.setPending (bytes ++ cs)) =
      step (u.setPending cs) := by
    have hstart := step_packetByte (s := s) (l := l) (b := 0x5C) (cs := body.map (Instr.packetByte l) ++ cs) (x := .idle)
      (by rw [hs]; exact hq) ho
    rw [hs] at hstart
    have hlen : bytes.length + 1 = (body.length + 1) + 1 := by simp [bytes, body]
    rw [hlen, ← run_one]
    refine (run_succ hstart).trans ?_
    exact run_packetBytes hp (quietBut_of_quiet hq) ho cs 1 body [] rfl hbody
  obtain ⟨-, -, hown, -⟩ := everyCommandCompletes
  have hchecking : (u.link l).assembler = .checking body := assembling_assembler s l _
  have hpend (x : State) (hx : x.pending = []) : x.setPending [] = x := by rw [← hx]; rfl
  have hup : u.pending = [] := hpending
  obtain ⟨hexec, hsettle⟩ := hown c u l tag n p hc hchecking
  have huq : u.quietBut l := by rw [State.quietBut, hu]; exact hq
  constructor
  · have h := feed []
    rw [List.append_nil] at h
    rw [h, hpend u hup]
    have hstep : step u = .next u.settle := by simp only [step, hup]
    rw [hstep, ← hsettle huq, hu]
  · rw [feed [c]]
    have hstep : step (u.setPending [c]) = exec c (u.setPending []) := rfl
    rw [hstep, hpend u hup, hexec, hu]

end Sys2Proof.Machine
end

section
/-! SUPPORT. The bytes of a reply: what the fields of a layout read back as (R180). -/

namespace Sys2Proof.Machine

@[simp] theorem toNat_be8 (n : Nat) : (be8 n).toNat = n % 256 := BitVec.toNat_ofNat n 8

/-- The two bytes of a two-byte field. -/
theorem be16_bytes (n : Nat) : 256 * (be8 (n / 256)).toNat + (be8 n).toNat = n % 65536 := by
  simp only [toNat_be8]
  omega

/-- The four bytes of a four-byte field. -/
theorem be32_bytes (n : Nat) :
    65536 * (256 * (be8 (n / 65536 / 256)).toNat + (be8 (n / 65536)).toNat) +
      (256 * (be8 (n / 256)).toNat + (be8 n).toNat) = n % 4294967296 := by
  rw [be16_bytes, be16_bytes]
  omega

@[simp] theorem be16_length (n : Nat) : (be16 n).length = 2 := rfl
@[simp] theorem be32_length (n : Nat) : (be32 n).length = 4 := rfl

theorem byteAt_eq_of_getElem? {p q : List Byte} {i j : Nat} (h : p[i]? = q[j]?) : byteAt p i = byteAt q j := by
  rw [byteAt, byteAt, List.getD_eq_getElem?_getD, List.getD_eq_getElem?_getD, h]

theorem byteAt_append_left {p q : List Byte} {i : Nat} (h : i < p.length) : byteAt (p ++ q) i = byteAt p i :=
  byteAt_eq_of_getElem? (List.getElem?_append_left h)

theorem byteAt_append_right {p q : List Byte} {n : Nat} (h : p.length = n) (i : Nat) :
    byteAt (p ++ q) (n + i) = byteAt q i := by
  refine byteAt_eq_of_getElem? ?_
  rw [List.getElem?_append_right (by omega), h, Nat.add_sub_cancel_left]

/-- A byte of a field of a layout, by the lengths of the fields before it. -/
theorem byteAt_field {fields : List (List Byte)} {field : List Byte} (q : List Byte) {i : Nat} (j : Nat)
    (hj : fields[j]? = some field) (hi : ((fields.take j).map List.length).sum = i) {k : Nat} (hk : k < field.length) :
    byteAt (fields.flatten ++ q) (i + k) = byteAt field k := by
  induction fields generalizing i j with
  | nil => simp at hj
  | cons f fields ih =>
    rw [List.flatten_cons, List.append_assoc]
    cases j with
    | zero =>
      obtain rfl : f = field := by simpa using hj
      obtain rfl : i = 0 := hi.symm
      rw [Nat.zero_add, byteAt_append_left hk]
    | succ j =>
      have hsum : i = f.length + ((fields.take j).map List.length).sum := by simpa using hi.symm
      rw [hsum, Nat.add_assoc, byteAt_append_right rfl]
      exact ih j (by simpa using hj) rfl

section Fields

/-! The fields of a layout whose lengths are `lens`, read where they stand. -/

variable {fields : List (List Byte)} {lens : List Nat} {i : Nat} (hlens : fields.map List.length = lens)
  (q : List Byte) (j : Nat)
include hlens

theorem sum_take_lengths (hi : (lens.take j).sum = i) : ((fields.take j).map List.length).sum = i := by
  rw [List.map_take, hlens, hi]

theorem byteAt_be8 {n : Nat} (hj : fields[j]? = some [be8 n]) (hi : (lens.take j).sum = i) :
    byteAt (fields.flatten ++ q) i = n % 256 :=
  (byteAt_field q j hj (sum_take_lengths hlens j hi) (k := 0) Nat.one_pos).trans (toNat_be8 n)

theorem wordAt_be16 {n : Nat} (hj : fields[j]? = some (be16 n)) (hi : (lens.take j).sum = i) :
    wordAt (fields.flatten ++ q) i = n % 65536 := by
  have h0 := byteAt_field q j hj (sum_take_lengths hlens j hi) (k := 0) (by simp)
  have h1 := byteAt_field q j hj (sum_take_lengths hlens j hi) (k := 1) (by simp)
  rw [Nat.add_zero] at h0
  rw [wordAt, h0, h1]
  exact be16_bytes n

theorem longAt_be32 {n : Nat} (hj : fields[j]? = some (be32 n)) (hi : (lens.take j).sum = i) :
    longAt (fields.flatten ++ q) i = n % 4294967296 := by
  have h0 := byteAt_field q j hj (sum_take_lengths hlens j hi) (k := 0) (by simp)
  have h1 := byteAt_field q j hj (sum_take_lengths hlens j hi) (k := 1) (by simp)
  have h2 := byteAt_field q j hj (sum_take_lengths hlens j hi) (k := 2) (by simp)
  have h3 := byteAt_field q j hj (sum_take_lengths hlens j hi) (k := 3) (by simp)
  rw [Nat.add_zero] at h0
  rw [longAt, wordAt, wordAt, h0, h1, Nat.add_assoc, h2, h3]
  exact be32_bytes n

theorem longAt_line {x : Line} (hj : fields[j]? = some (be32 x.toNat))
    (hi : (lens.take j).sum = i) : longAt (fields.flatten ++ q) i = x.toNat :=
  (longAt_be32 hlens q j hj hi).trans (Nat.mod_eq_of_lt x.isLt)

end Fields

/-- A byte of a run of blocks of one length is that byte of its block. -/
theorem byteAt_flatMap {α : Type} {f : α → List Byte} {m : Nat} :
    ∀ {xs : List α}, (∀ x ∈ xs, (f x).length = m) → ∀ {j : Nat} {x : α}, xs[j]? = some x → ∀ {k : Nat}, k < m →
      ∀ q : List Byte, byteAt (xs.flatMap f ++ q) (m * j + k) = byteAt (f x) k
  | [], _, _, _, hx, _, _, _ => by simp at hx
  | y :: ys, hlen, 0, x, hx, k, hk, q => by
    obtain rfl : y = x := by simpa using hx
    have hy := hlen y List.mem_cons_self
    rw [List.flatMap_cons, List.append_assoc, Nat.mul_zero, Nat.zero_add, byteAt_append_left (by omega)]
  | y :: ys, hlen, j + 1, x, hx, k, hk, q => by
    have hy := hlen y List.mem_cons_self
    have hj : m * (j + 1) + k = m + (m * j + k) := by rw [Nat.mul_add]; omega
    rw [List.flatMap_cons, List.append_assoc, hj, byteAt_append_right hy]
    exact byteAt_flatMap (fun z hz => hlen z (List.mem_cons_of_mem y hz)) (by simpa using hx) hk q

theorem length_flatMap_of_length {α : Type} {f : α → List Byte} {m : Nat} {xs : List α}
    (h : ∀ x ∈ xs, (f x).length = m) : (xs.flatMap f).length = m * xs.length := by
  induction xs with
  | nil => simp
  | cons x xs ih =>
    obtain ⟨hx, hxs⟩ := List.forall_mem_cons.1 h
    rw [List.flatMap_cons, List.length_append, hx, ih hxs, List.length_cons, Nat.mul_add]
    omega

@[simp] theorem laneIds_getElem? (h : LaneId) : laneIds[laneNumber h]? = some h := by cases h <;> rfl
@[simp] theorem barIds_getElem? (b : BarId) : barIds[barNumber b]? = some b := by cases b <;> rfl

/-- Bit i of a number made of bits. -/
theorem bitsToNat_testBit : ∀ (bs : List Bool) (i : Nat), (bitsToNat bs).testBit i = bs.getD i false
  | [], i => by simp [bitsToNat]
  | b :: bs, 0 => by cases b <;> simp [bitsToNat]
  | b :: bs, i + 1 => by
    have hdiv : ((if b then 1 else 0) + 2 * bitsToNat bs) / 2 = bitsToNat bs := by split <;> omega
    rw [bitsToNat, Nat.testBit_succ, hdiv, bitsToNat_testBit bs i]
    rfl

theorem bitsToNat_lt : ∀ bs : List Bool, bitsToNat bs < 2 ^ bs.length
  | [] => by simp [bitsToNat]
  | b :: bs => by
    have h := bitsToNat_lt bs
    rw [bitsToNat, List.length_cons, Nat.pow_succ]
    split <;> omega

end Sys2Proof.Machine
end

section
/-! STATRD and PGSTAT: the layouts of the status block and of a page record. -/

namespace Sys2Proof.Machine

/-! ### The status block (R186) -/

theorem laneBlock_length (ln : Lane) : (laneBlock ln).length = 7 := rfl

/-- The fields of the status block before its lane blocks. -/
def State.statusFields (s : State) : List (List Byte) :=
  [be16 s.ring.rows.length, be16 s.freeSlots, [be8 s.queue.pages.length],
    be16 (s.armedPage.elim 0 Page.id), [be8 (bitsToNat [s.queue.ready, s.queue.suppress])],
    be32 s.position.line.toNat, be32 s.position.highWater.toNat, be32 s.position.encoder.toNat,
    [be8 (sourceCode s.position.source)], be16 s.position.taken, be16 s.position.early, be16 s.position.empty,
    be32 s.position.reverseTotal.toNat, be16 s.position.overspeed, be16 s.lists.superseded, be16 s.library.truncated,
    be16 (s.link .image).discarded, be16 (s.link .image).badCheck, be16 (s.link .motion).discarded,
    be16 (s.link .motion).badCheck, be16 (s.link .service).discarded, be16 (s.link .service).badCheck]

theorem statusFields_lengths (s : State) :
    s.statusFields.map List.length = [2, 2, 1, 2, 1, 4, 4, 4, 1, 2, 2, 2, 4, 2, 2, 2, 2, 2, 2, 2, 2, 2] := by
  simp [State.statusFields]

theorem statusFields_length (s : State) : s.statusFields.flatten.length = 49 := by
  rw [List.length_flatten, statusFields_lengths]
  rfl

theorem statusBlock_eq (s : State) :
    s.statusBlock = s.statusFields.flatten ++ laneIds.flatMap fun h => laneBlock (s.lane h) := by
  unfold State.statusBlock State.statusFields
  generalize laneIds.flatMap (fun h => laneBlock (s.lane h)) = blocks
  cases s.armedPage <;>
  · simp only [linkCounters, List.flatten_cons, List.flatten_nil, Option.elim, List.append_assoc, List.nil_append]
    rfl

theorem statusBlock_length (s : State) : s.statusBlock.length = 105 := by
  rw [statusBlock_eq, List.length_append, statusFields_length,
    length_flatMap_of_length (m := 7) fun h _ => laneBlock_length (s.lane h)]
  rfl

/-- The lane block of a lane in the status block. -/
theorem statusBlock_lane (s : State) (h : LaneId) {k : Nat} (hk : k < 7) :
    byteAt s.statusBlock (49 + 7 * laneNumber h + k) = byteAt (laneBlock (s.lane h)) k := by
  have hblock := byteAt_flatMap (f := fun h => laneBlock (s.lane h)) (fun h _ => laneBlock_length (s.lane h))
    (laneIds_getElem? h) hk []
  rw [List.append_nil] at hblock
  rw [statusBlock_eq, Nat.add_assoc, byteAt_append_right (statusFields_length s), hblock]

theorem armedPage_eq_none {s : State} (h : ∀ q ∈ s.queue.pages, q.state ≠ .armed) : s.armedPage = none :=
  List.find?_eq_none.2 fun q hq => by simpa using h q hq

theorem statrd_checked {s : State} {l : LinkId} {tag : Byte} (p : List Byte) (h : s.listens l tag) :
    Checked (.statrd l tag p) s l tag [(p ≠ [], .badLength)]
      (exec (.statrd l tag p) s = .next (s.answers l tag .ok s.statusBlock)) := by
  have hc := exec_of_listens (c := .statrd l tag p) (act := State.statrd) h rfl rfl (permitted_of_le l (by decide))
  refine ⟨fun hlen => refuses_of_act h hc (if_pos hlen), fun hlen => ?_⟩
  have hblock : (s.idleAssembler l).statusBlock = s.statusBlock := by
    have hdiscarded (m : LinkId) : ((s.idleAssembler l).link m).discarded = (s.link m).discarded := by
      rw [idleAssembler_link]
      split <;> rfl
    have hbadCheck (m : LinkId) : ((s.idleAssembler l).link m).badCheck = (s.link m).badCheck := by
      rw [idleAssembler_link]
      split <;> rfl
    simp only [statusBlock_eq, State.statusFields, hdiscarded, hbadCheck]
    rfl
  have ha : (s.idleAssembler l).statrd l tag p = (s.idleAssembler l).reply l tag .ok s.statusBlock := by
    rw [State.statrd, if_neg hlen, hblock]
  exact acceptsPlain_of_act (effect := id) h hc ha (.of_eq rfl rfl rfl rfl rfl rfl)

/-- Settles O8: the status block's head field by field, then its lane blocks. -/
theorem statrdReadsTheStatusBlock : Obligations.StatrdReadsTheStatusBlock := by
  intro s l tag p h
  obtain ⟨hlen, hok⟩ := statrd_checked p h
  refine ⟨hlen, fun hp => ⟨s.statusBlock, hok hp, statusBlock_length s, ?_⟩⟩
  have lane (g : LaneId) {k : Nat} (hk : k < 7) := statusBlock_lane s g hk
  have hf := statusFields_lengths s
  rw [statusBlock_eq] at lane ⊢
  refine ⟨wordAt_be16 hf _ 0 rfl rfl, wordAt_be16 hf _ 1 rfl rfl, byteAt_be8 hf _ 2 rfl rfl, fun a ha => ?armed,
    fun hnone => ?unarmed, ?outputs, longAt_line hf _ 5 rfl rfl, longAt_line hf _ 6 rfl rfl, longAt_line hf _ 7 rfl rfl, ?source,
    wordAt_be16 hf _ 9 rfl rfl, wordAt_be16 hf _ 10 rfl rfl, wordAt_be16 hf _ 11 rfl rfl, longAt_line hf _ 12 rfl rfl,
    wordAt_be16 hf _ 13 rfl rfl, wordAt_be16 hf _ 14 rfl rfl, wordAt_be16 hf _ 15 rfl rfl, wordAt_be16 hf _ 16 rfl rfl,
    wordAt_be16 hf _ 17 rfl rfl, wordAt_be16 hf _ 18 rfl rfl, wordAt_be16 hf _ 19 rfl rfl, wordAt_be16 hf _ 20 rfl rfl,
    wordAt_be16 hf _ 21 rfl rfl, fun g => ⟨?head, (lane g (by decide)).trans (toNat_be8 _),
      (lane g (by decide)).trans (toNat_be8 _), (lane g (by decide)).trans (toNat_be8 _),
      (lane g (by decide)).trans (toNat_be8 _), ?fault, (lane g (by decide)).trans (toNat_be8 _)⟩⟩
  case armed =>
    have hword : s.armedPage = some a := ha
    exact (wordAt_be16 hf (n := s.armedPage.elim 0 Page.id) _ 3 rfl rfl).trans (by rw [hword]; rfl)
  case unarmed =>
    exact (wordAt_be16 hf (n := s.armedPage.elim 0 Page.id) _ 3 rfl rfl).trans (by rw [armedPage_eq_none hnone]; rfl)
  case outputs =>
    refine (byteAt_be8 hf (n := bitsToNat [s.queue.ready, s.queue.suppress]) _ 4 rfl rfl).trans ?_
    cases s.queue.ready <;> cases s.queue.suppress <;> rfl
  case source =>
    refine (byteAt_be8 hf (n := sourceCode s.position.source) _ 8 rfl rfl).trans ?_
    cases s.position.source <;> rfl
  case head =>
    refine (lane g (k := 0) (by decide)).trans ((toNat_be8 _).trans ?_)
    cases (s.lane g).head <;> rfl
  case fault =>
    refine (lane g (k := 5) (by decide)).trans ((toNat_be8 _).trans ?_)
    rcases (s.lane g).lastFault with _ | fault
    · rfl
    · cases fault <;> rfl

end Sys2Proof.Machine
end

section
/-! SUPPORT. The page record as sent (R180). -/

namespace Sys2Proof.Machine

/-- The fields of a page record. -/
def Page.recordFields (q : Page) : List (List Byte) :=
  [be16 q.id, be16 q.rowCount, [barSetByte q.bars], [be8 (pageStateCode q.state)], [be8 (causeCode q.cause)],
    [be8 (bitsToNat [q.degraded, q.trigger.isSome, q.gap.isSome])], be32 (q.trigger.getD 0).toNat, be16 q.delivered,
    be16 q.complete, be16 (q.progress.b0.getD 0), be16 (q.progress.b1.getD 0), be16 (q.progress.b2.getD 0),
    be16 (q.progress.b3.getD 0), be16 q.missedUnderrun, be16 q.missedLate, be16 q.missedOverspeed, be16 q.suppressed,
    be32 q.lost, be32 q.substituted]

/-- The lengths of those fields. -/
def recordLengths : List Nat := [2, 2, 1, 1, 1, 1, 4, 2, 2, 2, 2, 2, 2, 2, 2, 2, 2, 4, 4]

theorem recordFields_lengths (q : Page) : q.recordFields.map List.length = recordLengths := by
  simp [Page.recordFields, recordLengths]

theorem recordFields_length (q : Page) : q.recordFields.flatten.length = 40 := by
  rw [List.length_flatten, recordFields_lengths]
  rfl

theorem pageRecord_eq (q : Page) : pageRecord q = q.recordFields.flatten ++ nameField q.gap := by
  unfold pageRecord Page.recordFields
  simp only [PerBar.toList, List.flatMap_cons, List.flatMap_nil, List.flatten_cons, List.flatten_nil, List.append_assoc,
    List.nil_append, List.append_nil, List.cons_append]

theorem nameField_length : ∀ x : Option Name, (nameField x).length = 8
  | none => by simp [nameField, padTo]
  | some n => by
    simp only [nameField, padTo, List.length_append, List.length_take, List.length_replicate]
    omega

theorem pageRecord_length (q : Page) : (pageRecord q).length = 48 := by
  rw [pageRecord_eq, List.length_append, recordFields_length, nameField_length]

theorem nameField_of_length_le {n : Name} (h : n.length ≤ 8) :
    nameField (some n) = n ++ List.replicate (8 - n.length) 0 := by
  rw [nameField, padTo, List.take_of_length_le h]

/-- A bar set byte has a bit for each bar of the set. -/
theorem barSetByte_testBit (x : PerBar Bool) (b : BarId) : (barSetByte x).toNat.testBit (barNumber b) = x.get b := by
  obtain ⟨x0, x1, x2, x3⟩ := x
  cases b <;> cases x0 <;> cases x1 <;> cases x2 <;> cases x3 <;> rfl

theorem barSetByte_lt (x : PerBar Bool) : (barSetByte x).toNat < 16 := by
  obtain ⟨x0, x1, x2, x3⟩ := x
  cases x0 <;> cases x1 <;> cases x2 <;> cases x3 <;> decide

theorem bars_get (q : Page) (b : BarId) : q.bars.get b = (q.progress.get b).isSome := by
  cases b <;> rfl

section Fields

variable (q : Page)

theorem byteAt_pageRecord {x : Byte} {i : Nat} (j : Nat) (hj : q.recordFields[j]? = some [x])
    (hi : (recordLengths.take j).sum = i) :
    byteAt (pageRecord q) i = x.toNat := by
  rw [pageRecord_eq]
  exact byteAt_field _ j hj (sum_take_lengths (recordFields_lengths q) j hi) (k := 0) Nat.one_pos

/-- The next row of a bar stands in the bar's own field. -/
theorem wordAt_pageRecord_progress (b : BarId) :
    wordAt (pageRecord q) (16 + 2 * barNumber b) = (q.progress.get b).getD 0 % 65536 := by
  have hf := recordFields_lengths q
  rw [pageRecord_eq]
  cases b
  case b0 => exact wordAt_be16 hf _ 9 rfl rfl
  case b1 => exact wordAt_be16 hf _ 10 rfl rfl
  case b2 => exact wordAt_be16 hf _ 11 rfl rfl
  case b3 => exact wordAt_be16 hf _ 12 rfl rfl

theorem pageRecord_drop : (pageRecord q).drop 40 = nameField q.gap := by
  rw [pageRecord_eq, List.drop_append_of_le_length (recordFields_length q).ge, ← recordFields_length q, List.drop_length,
    List.nil_append]

end Fields

end Sys2Proof.Machine
end

section
/-! PGSTAT: one page record, or the count and every record. -/

namespace Sys2Proof.Machine

theorem pgstat_of_length_ne (s : State) (l : LinkId) (tag : Byte) {p : List Byte} (h : p.length ≠ 2) :
    s.pgstat l tag p = s.refuse l tag .badLength := by
  rw [State.pgstat]
  rintro _ _ rfl
  exact h rfl

theorem pgstat_of_length (s : State) (l : LinkId) (tag : Byte) : ∀ {p : List Byte}, p.length = 2 →
    s.pgstat l tag p =
      if wordAt p 0 = 0 then s.reply l tag .ok (be8 s.queue.pages.length :: s.queue.pages.flatMap pageRecord)
      else match s.page (wordAt p 0) with
        | none => s.refuse l tag .notFound
        | some q => s.reply l tag .ok (pageRecord q)
  | [hi, lo], _ => by
    rw [State.pgstat, u16_eq_wordAt] <;> rfl

theorem pgstat_checked {s : State} {l : LinkId} {tag : Byte} (p : List Byte) (h : s.listens l tag) :
    Checked (.pgstat l tag p) s l tag
      [(p.length ≠ 2, .badLength), (wordAt p 0 ≠ 0 ∧ s.page (wordAt p 0) = none, .notFound)]
      ((wordAt p 0 = 0 → exec (.pgstat l tag p) s = .next (s.answers l tag .ok
          (be8 s.queue.pages.length :: s.queue.pages.flatMap pageRecord))) ∧
       ∀ q, wordAt p 0 ≠ 0 → s.page (wordAt p 0) = some q →
         exec (.pgstat l tag p) s = .next (s.answers l tag .ok (pageRecord q))) := by
  have hc := exec_of_listens (c := .pgstat l tag p) (act := State.pgstat) h rfl rfl (permitted_of_le l (by decide))
  have hpage : (s.idleAssembler l).page (wordAt p 0) = s.page (wordAt p 0) := rfl
  refine ⟨fun hlen => refuses_of_act h hc (pgstat_of_length_ne _ _ _ hlen), fun hlen => ?_⟩
  have ha := pgstat_of_length (s.idleAssembler l) l tag (not_not.1 hlen)
  rw [hpage] at ha
  refine ⟨fun hfound => refuses_of_act h hc ?_, fun _ => ⟨fun hid => ?_, fun q hid hq => ?_⟩⟩
  · rw [ha, if_neg hfound.1, hfound.2]
  · rw [if_pos hid] at ha
    exact acceptsPlain_of_act (effect := id) h hc ha (.of_eq rfl rfl rfl rfl rfl rfl)
  · rw [if_neg hid, hq] at ha
    exact acceptsPlain_of_act (effect := id) h hc ha (.of_eq rfl rfl rfl rfl rfl rfl)

/-- Settles O9: the checks of PGSTAT, and the record field by field. -/
theorem pgstatReadsPageRecords : Obligations.PgstatReadsPageRecords := by
  refine ⟨fun s l tag p h => pgstat_checked p h, fun q => ?_⟩
  have hf := recordFields_lengths q
  have word {n i : Nat} (j : Nat) (hj : q.recordFields[j]? = some (be16 n))
      (hi : (recordLengths.take j).sum = i) :
      wordAt (pageRecord q) i = n % 65536 := by
    rw [pageRecord_eq]
    exact wordAt_be16 hf _ j hj hi
  have long {n i : Nat} (j : Nat) (hj : q.recordFields[j]? = some (be32 n))
      (hi : (recordLengths.take j).sum = i) :
      longAt (pageRecord q) i = n % 4294967296 := by
    rw [pageRecord_eq]
    exact longAt_be32 hf _ j hj hi
  have set := byteAt_pageRecord q 2 (i := 4) rfl rfl
  refine ⟨pageRecord_length q, word 0 rfl rfl, word 1 rfl rfl, fun b => ?bars, ?barsBound, ?state, ?cause, ?marks,
    (long 6 rfl rfl).trans (Nat.mod_eq_of_lt (q.trigger.getD 0).isLt), word 7 rfl rfl, word 8 rfl rfl,
    wordAt_pageRecord_progress q, word 13 rfl rfl, word 14 rfl rfl, word 15 rfl rfl, word 16 rfl rfl,
    long 17 rfl rfl, long 18 rfl rfl, fun n hn hlen => ?named, fun hn => ?unnamed⟩
  case bars => rw [set, barSetByte_testBit, bars_get]
  case barsBound => rw [set]; exact barSetByte_lt _
  case state =>
    refine (byteAt_pageRecord q 3 (i := 5) rfl rfl).trans ?_
    cases q.state <;> rfl
  case cause =>
    refine (byteAt_pageRecord q 4 (i := 6) rfl rfl).trans ?_
    rcases q.cause with _ | cause
    · rfl
    · cases cause <;> rfl
  case marks =>
    refine (byteAt_pageRecord q 5 (i := 7) rfl rfl).trans ?_
    cases q.degraded <;> cases q.trigger.isSome <;> cases q.gap.isSome <;> rfl
  case named => rw [pageRecord_drop, hn, nameField_of_length_le hlen]
  case unnamed => rw [pageRecord_drop, hn]; rfl

end Sys2Proof.Machine
end

section
/-! SUPPORT. Tables of checks over acts that branch as the table does, and words of the Page Queue's requests. -/

namespace Sys2Proof.Machine

section Tables

variable {c : Instr} {s : State} {l : LinkId} {tag : Byte} {p : List Byte} {act : Act} {table : List (Prop × Status)}
  {accepted : Prop}

/-- A check of the table is a branch of the act, and the table goes on in the branch's other side. -/
theorem checked_cons {fails cond : Prop} [Decidable cond] {st : Status} {rest : State} (h : s.listens l tag)
    (hc : exec c s = .next (s.taken l fun u => act u l tag p)) (hiff : fails ↔ cond)
    (ha : act (s.idleAssembler l) l tag p = if cond then (s.idleAssembler l).refuse l tag st else rest)
    (k : ¬fails → act (s.idleAssembler l) l tag p = rest → Checked c s l tag table accepted) :
    Checked c s l tag ((fails, st) :: table) accepted :=
  ⟨fun hf => refuses_of_act h hc (ha.trans (if_pos (hiff.1 hf))), fun hf => k hf (ha.trans (if_neg (mt hiff.2 hf)))⟩

/-- A check of the table that the act's payload patterns make. -/
theorem checked_cons_of_refuse {fails : Prop} {st : Status} (h : s.listens l tag)
    (hc : exec c s = .next (s.taken l fun u => act u l tag p))
    (ha : fails → act (s.idleAssembler l) l tag p = (s.idleAssembler l).refuse l tag st)
    (k : ¬fails → Checked c s l tag table accepted) : Checked c s l tag ((fails, st) :: table) accepted :=
  ⟨fun hf => refuses_of_act h hc (ha hf), k⟩

end Tables

theorem page_eq_none_iff {s : State} {id : Nat} : s.page id = none ↔ ∀ q ∈ s.queue.pages, q.id ≠ id := by
  simp [State.page]

theorem page_isSome_iff {s : State} {id : Nat} : (s.page id).isSome = true ↔ ∃ q ∈ s.queue.pages, q.id = id := by
  simp [State.page]

theorem ringHolds_iff {s : State} {id : Nat} : s.ringHolds id = true ↔ ∃ r ∈ s.ring.rows, r.page = id := by
  simp [State.ringHolds]

theorem nameChar_iff {b : Byte} : nameChar b = true ↔ IsNameCharacter b := by
  simp [nameChar, IsNameCharacter, or_assoc]

theorem not_all_nameChar_iff {n : Name} : (!n.all nameChar) = true ↔ ∃ x ∈ n, ¬IsNameCharacter x := by
  simp [← nameChar_iff]

theorem barSetOf_get (x : Byte) (b : BarId) : (barSetOf x).get b = x.toNat.testBit (barNumber b) := by
  cases b <;> rfl

theorem mem_barIds (b : BarId) : b ∈ barIds := by cases b <;> decide

theorem mem_laneIds (h : LaneId) : h ∈ laneIds := by cases h <;> decide

theorem not_barsEnabled_iff {s : State} {x : Byte} :
    (!s.barsEnabled (barSetOf x)) = true ↔ ∃ b, NamesBar x.toNat b ∧ (s.bar b).enabled = false := by
  simp [State.barsEnabled, barSetOf_get, NamesBar, mem_barIds]

theorem patternReady_iff {s : State} {n : Name} :
    s.patternReady n = true ↔ ∃ e, s.pattern n = some e ∧ e.ready = true := by
  unfold State.patternReady
  cases s.pattern n <;> simp

theorem not_patternReady_iff {s : State} {n : Name} :
    (!s.patternReady n) = true ↔ ¬∃ e, s.pattern n = some e ∧ e.ready = true := by
  rw [← patternReady_iff, Bool.not_eq_true', Bool.not_eq_true]

theorem armedPage_isSome {s : State} : s.armedPage.isSome = s.queue.pages.any (·.state == .armed) := by
  rw [State.armedPage, Bool.eq_iff_iff, List.find?_isSome, List.any_eq_true]

end Sys2Proof.Machine
end

section
/-! PGOPEN and PGRETIRE: a page's record joins and leaves the queue. -/

namespace Sys2Proof.Machine

/-- The page that PGOPEN declares (R27). -/
theorem openPage_eq (s : State) (id rows : Nat) (set : Byte) (name : Name) :
    s.openPage id rows (barSetOf set) name = s.setPages (s.queue.pages ++
      [{ id := id, rowCount := rows,
         progress := .ofFn fun b => if set.toNat.testBit (barNumber b) then some 0 else none,
         gap := if name = [] then none else some name,
         state := if s.queue.pages.any (·.state == .armed) then .declared else .armed,
         trigger := none, delivered := 0, complete := 0, missedUnderrun := 0, missedLate := 0,
         missedOverspeed := 0, suppressed := 0, lost := 0, substituted := 0, degraded := false, cause := none }]) := by
  rw [State.openPage, armedPage_isSome]
  rfl

/-- Settles O13: the branches of `State.pgopen`, each against the table's own words. -/
theorem pgopenDeclaresAPage : Obligations.PgopenDeclaresAPage := by
  intro s tag p h c id rows set name
  have hc := exec_of_listens (c := c) (act := State.pgopen) h rfl rfl rfl
  rcases p with _ | ⟨i1, _ | ⟨i0, _ | ⟨r1, _ | ⟨r0, _ | ⟨x, n⟩⟩⟩⟩⟩
  case cons.cons.cons.cons.cons =>
    refine checked_cons h hc (cond := 8 < n.length) (by simp only [List.length_cons]; omega) rfl fun _ ha => ?_
    rw [u16_eq_wordAt, u16_eq_wordAt] at ha
    refine checked_cons h hc Iff.rfl ha fun _ ha => ?_
    refine checked_cons h hc not_all_nameChar_iff.symm ha fun _ ha => ?_
    refine checked_cons h hc not_barsEnabled_iff.symm ha fun _ ha => ?_
    refine checked_cons h hc (or_congr page_isSome_iff ringHolds_iff).symm ha fun _ ha => ?_
    refine checked_cons h hc Iff.rfl ha fun _ ha => ?_
    refine checked_cons h hc (and_congr_right' not_patternReady_iff.symm) ha fun _ ha => ?_
    have hcount (id rows : Nat) (bars : PerBar Bool) : ((s.idleAssembler .image).openPage id rows bars n).queue.pages.length =
        s.queue.pages.length + 1 := List.length_append
    refine accepts_of_act hc (ha.trans ?_)
    dsimp only
    rw [hcount, openPage_eq]
    rfl
  all_goals exact ⟨fun _ => refuses_of_act h hc rfl, fun hlen => absurd (by simp) hlen⟩

theorem pgretire_of_length_ne (s : State) (l : LinkId) (tag : Byte) {p : List Byte} (h : p.length ≠ 2) :
    s.pgretire l tag p = s.refuse l tag .badLength := by
  rw [State.pgretire]
  rintro _ _ rfl
  exact h rfl

theorem pgretire_of_length (s : State) (l : LinkId) (tag : Byte) : ∀ {p : List Byte}, p.length = 2 →
    s.pgretire l tag p =
      match s.page (wordAt p 0) with
      | none => s.refuse l tag .notFound
      | some q =>
        if q.state = .done ∨ q.state = .aborted then
          (s.setPages (s.queue.pages.filter (·.id != q.id))).reply l tag .ok []
        else s.refuse l tag .wrongState
  | [hi, lo], _ => by
    rw [State.pgretire, u16_eq_wordAt] <;> rfl

/-- A page that is not ARMED leaves the queue without a change of the ARMED page, where ids are distinct. -/
theorem armedPage_removed {s : State} {q : Page} (hids : (s.queue.pages.map (·.id)).Nodup) (hq : q ∈ s.queue.pages)
    (harmed : q.state ≠ .armed) : (s.setPages (s.queue.pages.filter (·.id != q.id))).armedPage = s.armedPage := by
  refine (List.find?_filter).trans (List.find?_congr fun p hp => ?_)
  by_cases hid : p.id = q.id
  · obtain rfl : p = q := List.inj_on_of_nodup_map hids hp hq hid
    simp [harmed]
  · simp [bne_iff_ne.2 hid, beq_eq_decide]

/-- READY's condition reads the ARMED page, the margin and the lanes (R43). -/
theorem readyCondition_of_armedPage {s t : State} (hpage : t.armedPage = s.armedPage)
    (hmargin : t.queue.readyMargin = s.queue.readyMargin) (hlanes : t.lanes = s.lanes) :
    t.readyCondition = s.readyCondition := by
  simp only [State.readyCondition, State.activeLanes, State.lanesOf, State.lane, hpage, hmargin, hlanes]

/-- Settles O17: a record that is not ARMED leaves the queue, so that no output moves where ids are distinct. -/
theorem pgretireRemovesAnEndedPage : Obligations.PgretireRemovesAnEndedPage := by
  intro s tag p h c id
  have hc := exec_of_listens (c := c) (act := State.pgretire) h rfl rfl rfl
  refine checked_cons_of_refuse h hc (pgretire_of_length_ne _ _ _) fun hlen => ?_
  have ha := pgretire_of_length (s.idleAssembler .image) .image tag (not_not.1 hlen)
  have hpage : (s.idleAssembler .image).page (wordAt p 0) = s.page id := rfl
  rw [hpage] at ha
  refine checked_cons_of_refuse h hc (fun hnone => ?_) fun hsome => ?_
  · rw [ha, hnone]
  obtain ⟨q, hq⟩ := Option.ne_none_iff_exists'.1 hsome
  have hqid : q.id = id := page_id hq
  rw [hq] at ha
  refine checked_cons_of_refuse h hc (fun ⟨r, hr, hdone, haborted⟩ => ?_) fun hended => ?_
  · obtain rfl : q = r := Option.some.inj (hq.symm.trans hr)
    exact ha.trans (if_neg (not_or.2 ⟨hdone, haborted⟩))
  have hended : q.state = .done ∨ q.state = .aborted := by
    by_contra hn
    exact hended ⟨q, hq, not_or.1 hn⟩
  have hfilter : (fun r : Page => r.id != q.id) = fun r => decide (r.id ≠ id) := by
    funext r
    rw [hqid]
    exact (decide_not ..).symm
  have ha := ha.trans (if_pos hended)
  simp only [hfilter] at ha
  refine ⟨accepts_of_act hc ha, fun hids => acceptsPlain_of_act h hc ha ⟨rfl, ?_, rfl, rfl⟩⟩
  have harmed := armedPage_removed hids (List.mem_of_find?_eq_some hq) (by rcases hended with hs | hs <;> simp [hs])
  rw [hfilter] at harmed
  exact readyCondition_of_armedPage harmed rfl rfl

end Sys2Proof.Machine
end

section
/-! SUPPORT. The end of a wait moves links and replies alone; the end of a transition, field by field (R106, R107,
R108). -/

namespace Sys2Proof.Machine

/-! ### The end of a wait -/

theorem endWait_eq (s : State) (op : WaitOp) (st : Status) (p : List Byte) :
    s.endWait op st p = (s.setLinks (s.endWait op st p).links).setSent (s.endWait op st p).sent := by
  unfold State.endWait
  split
  · split <;> rfl
  · rfl

section EndWait

variable (s : State) (op : WaitOp) (st : Status) (p : List Byte)

@[simp] theorem endWait_position : (s.endWait op st p).position = s.position := by rw [endWait_eq]; rfl
@[simp] theorem endWait_ring : (s.endWait op st p).ring = s.ring := by rw [endWait_eq]; rfl
@[simp] theorem endWait_bars : (s.endWait op st p).bars = s.bars := by rw [endWait_eq]; rfl
@[simp] theorem endWait_lanes : (s.endWait op st p).lanes = s.lanes := by rw [endWait_eq]; rfl
@[simp] theorem endWait_lists : (s.endWait op st p).lists = s.lists := by rw [endWait_eq]; rfl
@[simp] theorem endWait_library : (s.endWait op st p).library = s.library := by rw [endWait_eq]; rfl
@[simp] theorem endWait_fresh : (s.endWait op st p).fresh = s.fresh := by rw [endWait_eq]; rfl
@[simp] theorem endWait_pending : (s.endWait op st p).pending = s.pending := by rw [endWait_eq]; rfl

/-- The end of a wait leaves of each link all but the Service link's request in progress. -/
theorem endWait_link (l : LinkId) :
    (s.endWait op st p).link l = { s.link l with busy := ((s.endWait op st p).link l).busy } := by
  unfold State.endWait
  split
  · split
    · cases l <;> rfl
    · rfl
  · rfl

theorem endWait_link_ne {l : LinkId} (h : l ≠ .service) : (s.endWait op st p).link l = s.link l := by
  unfold State.endWait
  split
  · split
    · exact (setBusy_link s .service l none).trans (if_neg h)
    · rfl
  · rfl

end EndWait

/-! ### The end of a transition -/

/-- A transition's edits in the table, its list empty, COMMITDONE raised, before a waiting NZCOMMIT is answered. -/
def State.writeTransition (s : State) (x : Transition) : State :=
  let s := s.writeTable x.edits
  let s := s.setLists { s.lists with transition := none }
  let s := s.setBars (s.bars.map fun x => { x with next := x.next.tableView })
  s.raise .service .commitdone

section EndTransition

variable {s : State} {x : Transition}

theorem endTransition_of_some (h : s.lists.transition = some x) :
    s.endTransition = (s.writeTransition x).endWait .nzcommit .ok (be16 x.edits.length) := by
  rw [State.endTransition, h]
  rfl

theorem endTransitionOf_of_eq (h : s.lists.transition = some x) :
    s.endTransitionOf x.page = (s.writeTransition x).endWait .nzcommit .ok (be16 x.edits.length) := by
  rw [State.endTransitionOf, h]
  exact (if_pos rfl).trans (endTransition_of_some h)

theorem endTransitionOf_of_ne {id : Nat} (h : ∀ x, s.lists.transition = some x → x.page ≠ id) :
    s.endTransitionOf id = s := by
  unfold State.endTransitionOf
  split
  next x hx => exact if_neg (h x hx)
  next => rfl

theorem writeTransition_lane (s : State) (x : Transition) (h : LaneId) :
    (s.writeTransition x).lane h = { s.lane h with nozzles := writeEdits x.edits h (s.lane h).nozzles } :=
  PerLane.get_ofFn _ h

theorem writeTransition_bar (s : State) (x : Transition) (b : BarId) :
    (s.writeTransition x).bar b = { s.bar b with next := (s.bar b).next.tableView } :=
  PerBar.get_map _ _ b

theorem writeTransition_service (s : State) (x : Transition) :
    (s.writeTransition x).link .service =
      { s.link .service with flags := (s.link .service).flags ||| 0x0020 } := rfl

end EndTransition

/-- What the end of a page's transition can change: the condition table, the view of loads begun, the lists, the
Service link and what is sent. -/
structure EndsTransition (s t : State) : Prop where
  position : t.position = s.position
  ring : t.ring = s.ring
  library : t.library = s.library
  lane : ∀ h, t.lane h = { s.lane h with nozzles := (t.lane h).nozzles }
  bar : ∀ b, t.bar b = s.bar b ∨ t.bar b = { s.bar b with next := (s.bar b).next.tableView }
  link : ∀ l, l ≠ .service → t.link l = s.link l

theorem endTransition_endsTransition {s : State} {x : Transition} (h : s.lists.transition = some x) :
    EndsTransition s s.endTransition := by
  rw [endTransition_of_some h]
  refine ⟨endWait_position .., endWait_ring .., endWait_library .., fun g => ?_, fun b => .inr ?_, fun l hl => ?_⟩
  · have hlane : ((s.writeTransition x).endWait .nzcommit .ok (be16 x.edits.length)).lane g = (s.writeTransition x).lane g :=
      congrArg (PerLane.get · g) (endWait_lanes ..)
    rw [hlane, writeTransition_lane]
  · exact (congrArg (PerBar.get · b) (endWait_bars ..)).trans (writeTransition_bar s x b)
  · rw [endWait_link_ne _ _ _ _ hl]
    exact (raise_link _ .service l .commitdone).trans (if_neg hl)

theorem endTransitionOf_endsTransition (s : State) (id : Nat) : EndsTransition s (s.endTransitionOf id) := by
  unfold State.endTransitionOf
  split
  next x hx =>
    split
    · exact endTransition_endsTransition hx
    · exact ⟨rfl, rfl, rfl, fun _ => rfl, fun _ => .inl rfl, fun _ _ => rfl⟩
  next => exact ⟨rfl, rfl, rfl, fun _ => rfl, fun _ => .inl rfl, fun _ _ => rfl⟩

end Sys2Proof.Machine
end

section
/-! SUPPORT. What an abort or a removal of a page leaves: the page's rows finished, its loads abandoned, its transition
ended. -/

namespace Sys2Proof.Machine

/-! ### Loads abandoned (R90) -/

theorem dropPage_load_ne (id r : Nat) (ln : Lane) {ld : HeadLoad} (h : (ln.dropPage id).load = some ld) :
    ld.row ≠ .page id r := by
  unfold Lane.dropPage at h
  cases hload : ln.load with
  | none => simp [hload] at h
  | some ld' =>
    rw [hload] at h
    cases hrow : ld'.row with
    | page i n =>
      by_cases hi : i = id
      · simp [hrow, hi] at h
      · simp only [hrow, if_neg hi] at h
        obtain rfl : ld' = ld := Option.some.inj (hload.symm.trans h)
        rw [hrow]
        exact fun e => hi (LoadRow.page.inj e).1
    | _ =>
      simp only [hrow] at h
      obtain rfl : ld' = ld := Option.some.inj (hload.symm.trans h)
      simp [hrow]

theorem dropPage_load_other {id : Nat} {ln : Lane} {ld : HeadLoad} (h : ln.load = some ld)
    (hrow : ∀ r, ld.row ≠ .page id r) : ln.dropPage id = ln := by
  cases hr : ld.row with
  | page i n =>
    have hi : i ≠ id := fun hi => hrow n (hi ▸ hr)
    simp only [Lane.dropPage, h, hr, if_neg hi]
  | _ => simp only [Lane.dropPage, h, hr]

theorem dropPage_eq (id : Nat) (ln : Lane) : ln.dropPage id = { ln with load := (ln.dropPage id).load } := by
  unfold Lane.dropPage
  split
  · split
    · split <;> rfl
    · rfl
  · rfl

theorem dropPage_next_ne {id : Nat} {x : BarNext} {pl : PageLoad} (h : x.dropPage id = .page pl) : pl.page ≠ id := by
  cases x with
  | page old =>
    by_cases hid : old.page = id
    · simp [BarNext.dropPage, hid] at h
    · simp only [BarNext.dropPage, if_neg hid, BarNext.page.injEq] at h
      exact h ▸ hid
  | _ => simp [BarNext.dropPage] at h

theorem tableView_eq_page {x : BarNext} {pl : PageLoad} (h : x.tableView = .page pl) :
    ∃ old, x = .page old ∧ old.page = pl.page := by
  cases x with
  | page old => exact ⟨old, rfl, BarNext.page.inj h ▸ rfl⟩
  | _ => simp [BarNext.tableView] at h

/-! ### A page's rows finished (R16, R17) -/

theorem finishRows_rows (s : State) (id : Nat) :
    (s.finishRows id).ring.rows = released (s.ring.rows.map (·.finishedOf id)) := by
  have hmap : (fun r : RowRec => if r.page == id then { r with retired := true } else r) = (·.finishedOf id) := by
    funext r
    by_cases h : r.page = id <;> simp [RowRec.finishedOf, h]
  simp only [State.finishRows, State.release, setRows_rows, hmap]
  rfl

/-- A page leaves the web: its loads are abandoned and its rows finished, then its transition ends. -/
def State.dropPage (s : State) (id : Nat) : State := ((s.abandonPage id).finishRows id).endTransitionOf id

/-- What a page's leaving the web leaves. -/
structure DropsPage (s t : State) (id : Nat) : Prop where
  position : t.position = s.position
  library : t.library = s.library
  queue : t.queue = s.queue
  rows : t.ring.rows = released (s.ring.rows.map (·.finishedOf id))
  roomMark : t.ring.roomMark = s.ring.roomMark
  store : t.ring.store = s.ring.store
  load : ∀ h ld r, (t.lane h).load = some ld → ld.row ≠ .page id r
  keptLoad : ∀ h ld, (s.lane h).load = some ld → (∀ r, ld.row ≠ .page id r) → (t.lane h).load = some ld
  next : ∀ b pl, (t.bar b).next = .page pl → pl.page ≠ id
  bar : ∀ b, t.bar b = { s.bar b with next := (t.bar b).next }
  lane : ∀ h, t.lane h = { s.lane h with load := (t.lane h).load, nozzles := (t.lane h).nozzles }
  link : ∀ l, l ≠ .service → t.link l = s.link l

theorem dropPage_dropsPage (s : State) (id : Nat) : DropsPage s (s.dropPage id) id := by
  let u := (s.abandonPage id).finishRows id
  have hlane (h : LaneId) : u.lane h = (s.lane h).dropPage id := PerLane.get_map _ _ h
  have hbar (b : BarId) : u.bar b = { s.bar b with next := (s.bar b).next.dropPage id } := PerBar.get_map _ _ b
  obtain ⟨hposition, hring, hlibrary, hlanes, hbars, hlinks⟩ := endTransitionOf_endsTransition u id
  have hload (h : LaneId) : ((s.dropPage id).lane h).load = ((s.lane h).dropPage id).load := by
    have hu : (u.lane h).load = ((s.lane h).dropPage id).load := congrArg Lane.load (hlane h)
    exact (congrArg Lane.load (hlanes h)).trans hu
  refine ⟨hposition, hlibrary, endTransitionOf_queue u id, ?rows, (congrArg Ring.roomMark hring).trans rfl,
    (congrArg Ring.store hring).trans rfl,
    fun h ld r hl => ?load, fun h ld hl hrow => ?keptLoad, fun b pl hn => ?next, fun b => ?bar, fun h => ?lane, hlinks⟩
  case rows => exact (congrArg Ring.rows hring).trans (finishRows_rows _ id)
  case load => exact dropPage_load_ne id r (s.lane h) ((hload h).symm.trans hl)
  case keptLoad => rw [hload, dropPage_load_other hl hrow, hl]
  case next =>
    rcases hbars b with hb | hb
    · exact dropPage_next_ne ((congrArg Bar.next (hb.trans (hbar b))).symm.trans hn)
    · have hview : ((s.bar b).next.dropPage id).tableView = .page pl := by
        rw [← hn]
        exact ((congrArg Bar.next hb).trans (by rw [hbar b])).symm
      obtain ⟨old, hold, hpage⟩ := tableView_eq_page hview
      exact hpage ▸ dropPage_next_ne hold
  case bar =>
    have hb : (s.dropPage id).bar b = { u.bar b with next := ((s.dropPage id).bar b).next } := by
      rcases hbars b with hb | hb
      · exact hb.trans (by rw [State.dropPage, hb])
      · exact hb.trans (by rw [State.dropPage, hb])
    rw [hbar b] at hb
    exact hb
  case lane =>
    have hl := hlanes h
    rw [hlane h, dropPage_eq] at hl
    exact hl.trans (by rw [hload]; rfl)

/-- A transition of the page: written and ended, COMMITDONE raised. -/
theorem dropPage_of_transition {s : State} {id : Nat} {x : Transition} (hx : s.lists.transition = some x)
    (hid : x.page = id) :
    (s.dropPage id).lists = { s.lists with transition := none } ∧
    (∀ h, ((s.dropPage id).lane h).nozzles = writeEdits x.edits h (s.lane h).nozzles) ∧
    ((s.dropPage id).link .service).flags = (s.link .service).flags ||| 0x0020 ∧
    (∀ tag, (s.link .service).busy = some (.waiting tag .nzcommit) → ((s.dropPage id).link .service).busy = none ∧
      (s.dropPage id).sent = s.sent ++ [.reply .service tag .ok (be16 x.edits.length)]) ∧
    ((∀ tag, (s.link .service).busy ≠ some (.waiting tag .nzcommit)) →
      ((s.dropPage id).link .service).busy = (s.link .service).busy ∧ (s.dropPage id).sent = s.sent) := by
  subst hid
  let u := (s.abandonPage x.page).finishRows x.page
  have hu : u.lists.transition = some x := hx
  have hdrop : s.dropPage x.page = (u.writeTransition x).endWait .nzcommit .ok (be16 x.edits.length) :=
    endTransitionOf_of_eq hu
  have hbusy : ((u.writeTransition x).link .service).busy = (s.link .service).busy :=
    (congrArg Link.busy (writeTransition_service u x)).trans rfl
  have hsent : (u.writeTransition x).sent = s.sent := rfl
  rw [hdrop]
  refine ⟨endWait_lists .., fun h => ?nozzles, ?flags, fun tag htag => ?waiting, fun hnot => ?free⟩
  case nozzles =>
    have hlane : ((u.writeTransition x).endWait .nzcommit .ok (be16 x.edits.length)).lane h = (u.writeTransition x).lane h :=
      congrArg (PerLane.get · h) (endWait_lanes ..)
    have hn : (u.lane h).nozzles = (s.lane h).nozzles :=
      (congrArg Lane.nozzles (PerLane.get_map _ _ h)).trans (lane_dropPage_nozzles _ _)
    rw [hlane, writeTransition_lane, hn]
  case flags =>
    rw [endWait_link, writeTransition_service]
    rfl
  case waiting =>
    have hfree : (((u.writeTransition x).setBusy .service none).link .service).busy = none := by
      rw [setBusy_link, if_pos rfl]
    rw [endWait_of_waiting _ _ (hbusy.trans htag)]
    exact ⟨hfree, congrArg (· ++ _) hsent⟩
  case free =>
    rw [endWait_of_not_waiting _ _ fun tag => by rw [hbusy]; exact hnot tag]
    exact ⟨hbusy, hsent⟩

/-- No transition of the page: the lists, the table, the links and what is sent stand. -/
theorem dropPage_of_no_transition {s : State} {id : Nat} (h : ∀ x, s.lists.transition = some x → x.page ≠ id) :
    (s.dropPage id).lists = s.lists ∧ (∀ g, ((s.dropPage id).lane g).nozzles = (s.lane g).nozzles) ∧
    (s.dropPage id).links = s.links ∧ (s.dropPage id).sent = s.sent := by
  have hdrop : s.dropPage id = (s.abandonPage id).finishRows id := endTransitionOf_of_ne h
  rw [hdrop]
  exact ⟨rfl, fun g => (congrArg Lane.nozzles (PerLane.get_map _ _ g)).trans (lane_dropPage_nozzles _ _), rfl, rfl⟩

end Sys2Proof.Machine
end

section
/-! An abort of a page. -/

namespace Sys2Proof.Machine

/-- A page is one that a bar prints and has not passed whole (R77). -/
def Page.IsCurrentFor (p : Page) (b : BarId) : Prop :=
  p.state = .printing ∧ ∃ n, p.progress.get b = some n ∧ n < p.rowCount

theorem isCurrentFor_iff (p : Page) (b : BarId) : p.IsCurrentFor b ↔ (p.state == .printing &&
    match p.progress.get b with
    | some n => n < p.rowCount
    | none => false) = true := by
  unfold Page.IsCurrentFor
  cases p.progress.get b <;> simp

/-- A bar's current page, as the oldest of its kind in the queue (R77). -/
theorem currentPage_eq_some {s : State} {b : BarId} {older younger : List Page} {p : Page}
    (hpages : s.queue.pages = older ++ p :: younger) (hp : p.IsCurrentFor b)
    (hold : ∀ o ∈ older, ¬o.IsCurrentFor b) : s.currentPage b = some p := by
  refine List.find?_eq_some_iff_append.2 ⟨(isCurrentFor_iff p b).1 hp, older, younger, hpages, fun o ho => ?_⟩
  rw [Bool.not_eq_true', ← Bool.not_eq_true]
  exact fun hc => hold o ho ((isCurrentFor_iff o b).2 hc)

theorem currentPage_eq_none {s : State} {b : BarId} (h : ∀ p ∈ s.queue.pages, ¬p.IsCurrentFor b) :
    s.currentPage b = none :=
  List.find?_eq_none.2 fun p hp hc => h p hp ((isCurrentFor_iff p b).2 hc)

/-- The state in which an aborted page leaves the web. -/
def State.markAborted (s : State) (id : Nat) (c : AbortCause) : State :=
  (s.clearDark id).modPage id fun p => { p with state := .aborted, cause := some c }

theorem abortPage_eq (s : State) (id : Nat) (c : AbortCause) :
    s.abortPage id c = (((s.markAborted id c).dropPage id).raise .image .pgabort).raise .motion .pgabort := rfl

theorem abortPage_link (s : State) (id : Nat) (c : AbortCause) :
    (s.abortPage id c).link .image = { s.link .image with flags := (s.link .image).flags ||| 0x0002 } ∧
    (s.abortPage id c).link .motion = { s.link .motion with flags := (s.link .motion).flags ||| 0x0010 } ∧
    (s.abortPage id c).link .service = ((s.markAborted id c).dropPage id).link .service := by
  have hlink := (dropPage_dropsPage (s.markAborted id c) id).link
  refine ⟨?_, ?_, rfl⟩
  · rw [abortPage_eq, raise_link, if_neg (by decide), raise_link, if_pos rfl, hlink .image (by decide)]
    rfl
  · rw [abortPage_eq, raise_link, if_pos rfl, raise_link, if_neg (by decide), hlink .motion (by decide)]
    rfl

/-- Settles O14: the aborted page is marked, leaves the web, and PGABORT is raised. -/
theorem abortEndsAPage : Obligations.AbortEndsAPage := by
  intro s id c q hq t
  let u := s.markAborted id c
  obtain ⟨hposition, hlibrary, hqueue, hrows, hroom, hstore, hload, hkept, hnext, hbar, hlane, _⟩ := dropPage_dropsPage u id
  obtain ⟨himage, hmotion, hservice⟩ := abortPage_link s id c
  have hpage (j : Nat) : t.page j =
      (s.page j).map fun p => if p.id == id then { p with state := .aborted, cause := some c } else p := by
    have h : t.page j = u.page j := by rw [State.page, State.page, ← hqueue]; rfl
    exact h.trans (modPage_page (s.clearDark id) id (fun p => { p with state := .aborted, cause := some c }) (fun _ => rfl) j)
  have hdark (b : BarId) : (t.bar b).darkReported = (u.bar b).darkReported :=
    (congrArg Bar.darkReported (hbar b)).trans rfl
  have hu (b : BarId) : u.bar b = match s.currentPage b with
      | some p => if p.id = id then { s.bar b with darkReported := false } else s.bar b
      | none => s.bar b := PerBar.get_ofFn _ b
  refine ⟨?self, fun j hj => ?other, hrows, hroom, hstore, hload, hkept, hnext, fun b => ?plays, fun b => ⟨?current, ?noCurrent⟩,
    fun h => ?head, fun x hx hid => ?transition, fun h => ?free, congrArg Link.flags himage, congrArg Link.flags hmotion,
    hposition, hlibrary⟩
  case self =>
    rw [hpage, hq]
    simp [page_id hq]
  case other =>
    rw [hpage]
    cases hj' : s.page j with
    | none => rfl
    | some p =>
      have hne : p.id ≠ id := page_id hj' ▸ hj
      simp [hne]
  case plays =>
    have h : (u.bar b).gapPlay = (s.bar b).gapPlay ∧ (u.bar b).checkSlot = (s.bar b).checkSlot := by
      rw [hu]
      split
      · split <;> exact ⟨rfl, rfl⟩
      · exact ⟨rfl, rfl⟩
    obtain ⟨hgap, hslot⟩ := h
    exact ⟨(congrArg Bar.gapPlay (hbar b)).trans hgap, (congrArg Bar.checkSlot (hbar b)).trans hslot⟩
  case current =>
    intro older p younger hpages hp hold
    rw [hdark, hu, currentPage_eq_some hpages hp hold]
    dsimp only
    split <;> rfl
  case noCurrent =>
    intro h
    rw [hdark, hu, currentPage_eq_none h]
  case head =>
    exact ⟨(congrArg Lane.head (hlane h)).trans rfl, (congrArg Lane.fire (hlane h)).trans rfl,
      (congrArg Lane.fireOpen (hlane h)).trans rfl⟩
  case transition =>
    obtain ⟨hlists, hnozzles, hflags, hwait, hnot⟩ := dropPage_of_transition (s := u) hx hid
    refine ⟨hlists, hnozzles, ?_, fun tag htag => ?_, fun hn => ?_⟩
    · rw [hservice]; exact hflags
    · rw [hservice]; exact hwait tag htag
    · rw [hservice]; exact hnot hn
  case free =>
    obtain ⟨hlists, hnozzles, hlinks, hsent⟩ := dropPage_of_no_transition (s := u) h
    refine ⟨hlists, hnozzles, ?_, hsent⟩
    rw [hservice, State.link, hlinks]
    rfl

end Sys2Proof.Machine
end

section
/-! SUPPORT. What PGCANCEL and PGABORT do with each page. -/

namespace Sys2Proof.Machine

/-! ### Arming (R25) -/

theorem armOldest_append {older younger : List Page} {p : Page} (hp : p.state = .declared)
    (hold : ∀ o ∈ older, o.state ≠ .declared) :
    armOldest (older ++ p :: younger) = older ++ { p with state := .armed } :: younger := by
  induction older with
  | nil => exact if_pos hp
  | cons o older ih =>
    obtain ⟨ho, hold⟩ := List.forall_mem_cons.1 hold
    rw [List.cons_append, armOldest, if_neg ho, ih hold]
    rfl

theorem armOldest_of_none {ps : List Page} (h : ∀ p ∈ ps, p.state ≠ .declared) : armOldest ps = ps := by
  induction ps with
  | nil => rfl
  | cons p ps ih =>
    obtain ⟨hp, hps⟩ := List.forall_mem_cons.1 h
    rw [armOldest, if_neg hp, ih hps]

/-! ### A removal (R36) -/

theorem removePage_eq (s : State) (q : Page) :
    s.removePage q = (if q.state = .armed then
      ((s.setPages (s.queue.pages.filter (·.id != q.id))).dropPage q.id).setPages
        (armOldest (s.queue.pages.filter (·.id != q.id)))
      else (s.setPages (s.queue.pages.filter (·.id != q.id))).dropPage q.id) := by
  have hqueue := (dropPage_dropsPage (s.setPages (s.queue.pages.filter (·.id != q.id))) q.id).queue
  have hpages : armOldest ((s.setPages (s.queue.pages.filter (·.id != q.id))).dropPage q.id).queue.pages =
      armOldest (s.queue.pages.filter (·.id != q.id)) := by
    rw [hqueue]
    rfl
  rw [← hpages]
  rfl

/-! ### The requests by their payloads -/

theorem pgcancel_of_length_ne (s : State) (l : LinkId) (tag : Byte) {p : List Byte} (h : p.length ≠ 2) :
    s.pgcancel l tag p = s.refuse l tag .badLength := by
  rw [State.pgcancel]
  rintro _ _ rfl
  exact h rfl

theorem pgcancel_of_length (s : State) (l : LinkId) (tag : Byte) : ∀ {p : List Byte}, p.length = 2 →
    s.pgcancel l tag p =
      match s.page (wordAt p 0) with
      | none => s.refuse l tag .notFound
      | some q =>
        match q.state with
        | .declared | .armed => (s.removePage q).reply l tag .ok []
        | .printing => (s.abortPage q.id .cancelled).reply l tag .ok []
        | .done | .aborted => s.refuse l tag .wrongState
  | [hi, lo], _ => by
    rw [State.pgcancel, u16_eq_wordAt] <;> rfl

theorem pgabort_of_length_ne (s : State) (l : LinkId) (tag : Byte) {p : List Byte} (h : p.length ≠ 2) :
    s.pgabort l tag p = s.refuse l tag .badLength := by
  rw [State.pgabort]
  rintro _ _ rfl
  exact h rfl

theorem pgabort_of_length (s : State) (l : LinkId) (tag : Byte) : ∀ {p : List Byte}, p.length = 2 →
    s.pgabort l tag p =
      if wordAt p 0 = 0 then
        if s.anyPrinting then s.abortAll.reply l tag .ok [] else s.refuse l tag .wrongState
      else
        match s.page (wordAt p 0) with
        | none => s.refuse l tag .notFound
        | some q =>
          if q.state = .printing then (s.abortPage q.id .motionAbort).reply l tag .ok []
          else s.refuse l tag .wrongState
  | [hi, lo], _ => by
    rw [State.pgabort, u16_eq_wordAt] <;> rfl

/-! ### Several aborts -/

/-- The record of an aborted page (R35). -/
def Page.abort (c : AbortCause) (q : Page) : Page := { q with state := .aborted, cause := some c }

theorem abortPage_pages (s : State) (id : Nat) (c : AbortCause) :
    (s.abortPage id c).queue.pages = s.queue.pages.map fun q => if q.id = id then q.abort c else q := by
  have hqueue := (dropPage_dropsPage (s.markAborted id c) id).queue
  have hpages : (s.abortPage id c).queue.pages = (s.markAborted id c).queue.pages := congrArg Queue.pages hqueue
  refine hpages.trans (List.map_congr_left fun q _ => ?_)
  by_cases h : q.id = id <;> simp [h, Page.abort]

theorem foldl_abortPage_pages (c : AbortCause) : ∀ (ids : List Nat) (s : State),
    (ids.foldl (fun v i => v.abortPage i c) s).queue.pages =
      s.queue.pages.map fun q => if q.id ∈ ids then q.abort c else q
  | [], s => by simp
  | id :: ids, s => by
    rw [List.foldl_cons, foldl_abortPage_pages c ids, abortPage_pages, List.map_map]
    refine List.map_congr_left fun q _ => ?_
    by_cases h : q.id = id
    · simp only [Function.comp_apply, h, if_true, List.mem_cons, true_or]
      split <;> rfl
    · simp only [Function.comp_apply, h, if_false, List.mem_cons, false_or]

/-- Where ids are distinct, the ids of the PRINTING pages name those pages alone. -/
theorem mem_printingIds {s : State} {q : Page} (hids : (s.queue.pages.map (·.id)).Nodup) (hq : q ∈ s.queue.pages) :
    q.id ∈ s.printingIds ↔ q.state = .printing := by
  refine List.mem_map.trans ⟨?_, fun hs => ⟨q, List.mem_filter.2 ⟨hq, by simp [hs]⟩, rfl⟩⟩
  rintro ⟨r, hr, hrid⟩
  obtain ⟨hr, hs⟩ := List.mem_filter.1 hr
  obtain rfl : r = q := List.inj_on_of_nodup_map hids hr hq hrid
  simpa using hs

end Sys2Proof.Machine
end

section
/-! PGCANCEL and PGABORT. -/

namespace Sys2Proof.Machine

/-- What a removal leaves, for the statement of PGCANCEL. -/
theorem removePage_spec (s : State) (q : Page) (id : Nat) (hid : q.id = id) :
    let t := s.removePage q
    (q.state ≠ .armed → t.queue.pages = s.queue.pages.filter (·.id != id)) ∧
    (q.state = .armed → t.queue.pages = armOldest (s.queue.pages.filter (·.id != id))) := by
  subst hid
  have hqueue := (dropPage_dropsPage (s.setPages (s.queue.pages.filter (·.id != q.id))) q.id).queue
  refine ⟨fun h => ?_, fun h => ?_⟩
  · rw [removePage_eq, if_neg h, hqueue]
    rfl
  · rw [removePage_eq, if_pos h]
    rfl

/-- A removal is the page's leaving the web, with the pages of the queue set. -/
theorem removePage_eq_setPages (s : State) (q : Page) :
    s.removePage q =
      ((s.setPages (s.queue.pages.filter (·.id != q.id))).dropPage q.id).setPages (s.removePage q).queue.pages := by
  by_cases h : q.state = .armed
  · have he := (removePage_eq s q).trans (if_pos h)
    rw [he]
    rfl
  · have he := (removePage_eq s q).trans (if_neg h)
    rw [he]
    rfl

/-- Settles O15: a removal is the page's leaving the web, with the queue's pages set. -/
theorem pgcancelActsByPageState : Obligations.PgcancelActsByPageState := by
  refine ⟨fun ps => ⟨?_, armOldest_of_none⟩, fun s tag p h => ?_⟩
  · rintro older p younger rfl hp hold
    exact armOldest_append hp hold
  intro c id
  have hc := exec_of_listens (c := c) (act := State.pgcancel) h rfl rfl rfl
  refine checked_cons_of_refuse h hc (pgcancel_of_length_ne _ _ _) fun hlen => ?_
  have ha := pgcancel_of_length (s.idleAssembler .image) .image tag (not_not.1 hlen)
  have hpage : (s.idleAssembler .image).page (wordAt p 0) = s.page id := rfl
  rw [hpage] at ha
  refine checked_cons_of_refuse h hc (fun hnone => by rw [ha, hnone]) fun _ q hq => ?_
  have hid : q.id = id := page_id hq
  rw [hq] at ha
  dsimp only at ha
  refine ⟨fun hs => ?ended, fun hs => ?printing, fun hs => ?waiting⟩
  case ended =>
    refine refuses_of_act h hc (ha.trans ?_)
    rcases hs with hs | hs <;> rw [hs]
  case printing =>
    simp only [hs, hid] at ha
    exact accepts_of_act hc ha
  case waiting =>
    have ha : (s.idleAssembler .image).pgcancel .image tag p =
        ((s.idleAssembler .image).removePage q).reply .image tag .ok [] := by
      rcases hs with hs | hs <;> rw [ha, hs]
    let u := (s.idleAssembler .image).setPages (s.queue.pages.filter (·.id != id))
    have hremove : (s.idleAssembler .image).removePage q =
        (u.dropPage id).setPages ((s.idleAssembler .image).removePage q).queue.pages := by
      have he := removePage_eq_setPages (s.idleAssembler .image) q
      rw [hid] at he
      exact he
    obtain ⟨hother, harmed⟩ := removePage_spec (s.idleAssembler .image) q id hid
    obtain ⟨hposition, hlibrary, _, hrows, _, _, hload, _, hnext, _⟩ := dropPage_dropsPage u id
    have field {α : Type} (get : State → α) (hevent : ∀ f, get (event f s) = get (f s)) :
        get (s.taken .image fun v => v.pgcancel .image tag p) =
          get (((u.dropPage id).setPages ((s.idleAssembler .image).removePage q).queue.pages).reply .image tag .ok []) := by
      rw [← hremove, ← ha]
      exact hevent _
    have hsent := field State.sent fun f => event_sent f s
    refine ⟨_, hc, fun hd => ?_, fun har => ?_, ?_, fun g ld r hl => ?_, fun b pl hn => ?_, fun x hx hxid => ⟨?_, fun g => ?_⟩,
      fun hx => ⟨?_, ?_⟩, ?_, ?_, ?_⟩
    · exact (field (·.queue.pages) fun f => event_pages f s).trans (hother (by simp [hd]))
    · exact (field (·.queue.pages) fun f => event_pages f s).trans (harmed har)
    · exact (field (·.ring.rows) fun f => congrArg Ring.rows (event_ring f s)).trans hrows
    · exact hload g ld r ((congrArg Lane.load (field (·.lane g) fun f => congrArg (PerLane.get · g) (event_lanes f s))).symm.trans hl)
    · exact hnext b pl ((congrArg Bar.next (field (·.bar b) fun f => congrArg (PerBar.get · b) (event_bars f s))).symm.trans hn)
    · exact (field State.lists fun f => event_lists f s).trans (dropPage_of_transition (s := u) hx hxid).1
    · exact (congrArg Lane.nozzles (field (·.lane g) fun f => congrArg (PerLane.get · g) (event_lanes f s))).trans
        ((dropPage_of_transition (s := u) hx hxid).2.1 g)
    · exact (field State.lists fun f => event_lists f s).trans (dropPage_of_no_transition (s := u) hx).1
    · exact hsent.trans (congrArg (· ++ _) (dropPage_of_no_transition (s := u) hx).2.2.2)
    · rw [hsent]
      exact List.getLast?_concat
    · exact (field State.position fun f => event_position f s).trans hposition
    · exact (field State.library fun f => event_library f s).trans hlibrary

/-- Settles O16: the branches of PGABORT, and several aborts in turn. -/
theorem pgabortAbortsPrintingPages : Obligations.PgabortAbortsPrintingPages := by
  intro s tag p h c id
  have hc := exec_of_listens (c := c) (act := State.pgabort) h rfl rfl rfl
  refine checked_cons_of_refuse h hc (pgabort_of_length_ne _ _ _) fun hlen => ?_
  have ha := pgabort_of_length (s.idleAssembler .motion) .motion tag (not_not.1 hlen)
  have hpage : (s.idleAssembler .motion).page (wordAt p 0) = s.page id := rfl
  have hprint := anyPrinting_iff (s.idleAssembler .motion)
  rw [hpage] at ha
  refine checked_cons_of_refuse h hc (fun ⟨hid, hnone⟩ => by rw [ha, if_neg hid, hnone]) fun hfound => ?_
  refine checked_cons_of_refuse h hc (fun ⟨hid, q, hq, hs⟩ => ?_) fun hprinting => ?_
  · rw [ha, if_neg hid, hq]
    exact if_neg hs
  refine checked_cons_of_refuse h hc (fun ⟨hid, hs⟩ => ?_) fun hsome => ⟨fun hid => ?_, fun hid => ?_⟩
  · rw [ha, if_pos hid, if_neg]
    exact fun hp => (hprint.1 hp).elim fun q hq => hs q hq.1 hq.2
  · obtain ⟨q, hq⟩ := Option.ne_none_iff_exists'.1 fun hn => hfound ⟨hid, hn⟩
    have hs : q.state = .printing := by
      by_contra hs
      exact hprinting ⟨hid, q, hq, hs⟩
    rw [if_neg hid, hq] at ha
    dsimp only at ha
    rw [if_pos hs, page_id hq] at ha
    exact accepts_of_act hc ha
  · have hany : (s.idleAssembler .motion).anyPrinting = true := by
      by_contra hn
      refine hsome ⟨hid, fun q hq hs => hn (hprint.2 ⟨q, hq, hs⟩)⟩
    rw [if_pos hid, if_pos hany] at ha
    refine ⟨accepts_of_act hc ha, fun hids => ⟨_, hc, ?_⟩⟩
    refine (event_pages _ s).trans ((congrArg (·.queue.pages) ha).trans ?_)
    refine (foldl_abortPage_pages .motionAbort _ _).trans (List.map_congr_left fun q hq => ?_)
    have hmem := mem_printingIds (s := s.idleAssembler .motion) hids hq
    by_cases hs : q.state = .printing
    · rw [if_pos (hmem.2 hs), if_pos hs]
      rfl
    · rw [if_neg (mt hmem.1 hs), if_neg hs]

end Sys2Proof.Machine
end

section
/-! SUPPORT. What a trigger offered to the Page Queue does, by its outcome (R28 to R30). -/

namespace Sys2Proof.Machine

theorem armedPage_eq_some_of_exists {s : State} (h : ∃ q ∈ s.queue.pages, q.state = .armed) :
    ∃ a, s.armedPage = some a := by
  rw [← Option.isSome_iff_exists, armedPage_isSome, List.any_eq_true]
  exact h.imp fun q hq => ⟨hq.1, by simp [hq.2]⟩

theorem judge_of_none {s : State} (h : s.armedPage = none) : s.judge = .empty := by
  rw [State.judge, h]

theorem judge_of_early {s : State} {a : Page} (ha : s.armedPage = some a) (he : s.position.IsEarly) :
    s.judge = .early := by
  obtain ⟨t, ht, hlt⟩ := he
  simp only [State.judge, ha, ht, if_pos hlt]

theorem judge_of_taken {s : State} {a : Page} (ha : s.armedPage = some a) (he : ¬s.position.IsEarly) :
    s.judge = .taken := by
  cases ht : s.position.lastTrigger with
  | none => simp only [State.judge, ha, ht]
  | some t =>
    have hlt : ¬(s.position.line - t).toNat < max s.position.lastRows s.position.holdoff := fun h => he ⟨t, ht, h⟩
    simp only [State.judge, ha, ht, if_neg hlt]

theorem offer_of_none {s : State} (auto : Bool) (h : s.armedPage = none) : s.offer auto = s.emptyTrigger auto := by
  simp only [State.offer, h, judge_of_none h]

theorem offer_of_early {s : State} {a : Page} (auto : Bool) (ha : s.armedPage = some a) (he : s.position.IsEarly) :
    s.offer auto = s.earlyTrigger := by
  simp only [State.offer, ha, judge_of_early ha he]

/-- The state in which the bars begin at a trigger that takes a page (R29). -/
def State.startPage (a : Page) (s : State) : State :=
  (s.setPosition { s.position with
    taken := min 65535 (s.position.taken + 1), lastTrigger := some s.position.line, lastRows := a.rowCount }).setPages
    (armOldest (s.queue.pages.map fun q =>
      if q.id = a.id then { q with state := .printing, trigger := some s.position.line } else q))

theorem takeTrigger_eq (s : State) (a : Page) :
    s.takeTrigger a = runTasks (State.triggerBar a.id) 4 ((s.triggerBars a).map fun b => [b]) (s.startPage a) := by
  have hpages : (s.queue.pages.map fun q =>
      if q.id == a.id then { q with state := PageState.printing, trigger := some s.position.line } else q) =
      s.queue.pages.map fun q => if q.id = a.id then { q with state := .printing, trigger := some s.position.line } else q :=
    List.map_congr_left fun q _ => by by_cases h : q.id = a.id <;> simp [h]
  rw [State.startPage, ← hpages]
  rfl

/-- A taken trigger: the page starts, and the bars of its set with offset 0 begin row 0 in some order. -/
theorem offer_of_taken {s : State} {a : Page} (auto : Bool) (ha : s.armedPage = some a) (he : ¬s.position.IsEarly) :
    ∃ order : List BarId, order.Perm (barIds.filter fun b => (a.progress.get b).isSome && (s.bar b).offset == 0) ∧
      s.offer auto = order.foldl (fun v b => v.draw.beginPage b a.id 0) (s.startPage a) := by
  have hbars : ((s.triggerBars a).map fun b => [b]).flatten = s.triggerBars a :=
    List.flatMap_singleton' _
  have hlen : ((s.triggerBars a).map fun b => [b]).flatten.length ≤ 4 := by
    rw [hbars]
    exact List.length_filter_le _ _
  obtain ⟨order, hperm, _, hrun⟩ := runTasks_order (State.triggerBar a.id) 4 _ (s.startPage a) hlen
  rw [hbars] at hperm
  refine ⟨order, hperm, ?_⟩
  simp only [State.offer, ha, judge_of_taken ha he]
  exact (takeTrigger_eq s a).trans hrun

end Sys2Proof.Machine
end

section
/-! SUPPORT. The three sources of triggers (R54 to R57). -/

namespace Sys2Proof.Machine

theorem exec_pdet_of_quiet {s : State} (hq : s.quiet = true) :
    exec .pdetRisingEdge s = .next (event State.pdetEdge s) :=
  congrArg Host.Outcome.next (after_of_quiet _ s hq)

/-- Under source PDET a rising edge is an offer (R55). -/
theorem pdet_effects {s : State} {effect : State → State} (hq : s.quiet = true) (hs : s.position.source = .pdet)
    (he : s.offer false = effect s) : Effects .pdetRisingEdge s effect :=
  (exec_pdet_of_quiet hq).trans (congrArg _ (event_congr ((if_pos hs).trans he)))

/-- An automatic trigger that is raised is an offer (R57). -/
theorem automatic_effects {s : State} {effect : State → State} (ht : s.position.tickRaised = false)
    (ha : s.position.autoRaised = true)
    (he : (s.setPosition { s.position with autoRaised := false }).offer true = effect s) :
    Effects .automaticTrigger s effect := by
  have hexec : exec .automaticTrigger s = .next (event State.autoTrigger s) := by
    have h : exec .automaticTrigger s = execAutomaticTrigger s := rfl
    rw [h, execAutomaticTrigger, settleTick_of_not_raised ht, if_pos ha]
  exact hexec.trans (congrArg _ (event_congr he))

theorem automatic_of_quiet {s : State} (hq : s.quiet = true) : exec .automaticTrigger s = .next s := by
  obtain ⟨ht, ha, _⟩ := (quiet_iff s).1 hq
  have h : exec .automaticTrigger s = execAutomaticTrigger s := rfl
  rw [h, execAutomaticTrigger, settleTick_of_not_raised ht, if_neg (by simp [ha]), settle_of_quiet s hq]

/-- TRIG under LINK or AUTO is an offer, answered with its outcome (R56). -/
theorem trig_accepts {s : State} {tag : Byte} {outcome : TriggerOutcome} (effect : State → State) {b : Byte}
    (h : s.listens .motion tag) (hs : s.position.source ≠ .pdet)
    (he : (s.idleAssembler .motion).offer false = effect (s.idleAssembler .motion))
    (hj : (s.idleAssembler .motion).judge = outcome) (hb : outcomeByte outcome = b) :
    Accepts (.trig .motion tag []) s .motion tag effect (b :: be32 s.position.line.toNat) := by
  have hs : (s.idleAssembler .motion).position.source ≠ .pdet := hs
  refine accepts_of_act (exec_of_listens (c := .trig .motion tag []) (act := State.trig) h rfl rfl rfl) ?_
  rw [State.trig, if_neg (not_not.2 rfl), if_neg hs, he, hj, hb, idleAssembler_position]

end Sys2Proof.Machine
end

section
/-! Triggers that are not taken, and a trigger that takes the ARMED page. -/

namespace Sys2Proof.Machine

/-- Settles O18: each source offers its trigger, and the offer is empty or early. -/
theorem triggersNotTaken : Obligations.TriggersNotTaken := by
  intro s line none_ early skip countEmpty countEarly
  have hempty (h : none_) (u : State) (hu : u.queue = s.queue) : u.armedPage = none := by
    rw [State.armedPage, hu]
    exact armedPage_eq_none h
  have hearly (h : early) (u : State) (hu : u.queue = s.queue) : ∃ a, u.armedPage = some a := by
    obtain ⟨a, ha⟩ := armedPage_eq_some_of_exists h.1
    exact ⟨a, by rw [State.armedPage, hu]; exact ha⟩
  refine ⟨fun tag p h => ?trig, fun hq ho hs => ?ignored, fun hq hs h => ?pdetEmpty, fun hq hs h => ?pdetEarly,
    fun ht ha h => ?autoEmpty, fun ht ha h => ?autoEarly, automatic_of_quiet⟩
  case trig =>
    have hc := exec_of_listens (c := .trig .motion tag p) (act := State.trig) h rfl rfl rfl
    refine checked_cons h hc Iff.rfl rfl fun hp ha => ?_
    refine checked_cons h hc Iff.rfl ha fun hs _ => ?_
    obtain rfl := not_not.1 hp
    refine ⟨fun hn => ?_, fun he => ?_⟩
    · have hnone := hempty hn (s.idleAssembler .motion) rfl
      exact trig_accepts (skip countEmpty) h hs (offer_of_none false hnone) (judge_of_none hnone) rfl
    · obtain ⟨a, ha⟩ := hearly he (s.idleAssembler .motion) rfl
      exact trig_accepts (skip countEarly) h hs (offer_of_early false ha he.2) (judge_of_early ha he.2) rfl
  case ignored =>
    have hid : s.pdetEdge = s := if_neg hs
    rw [exec_pdet_of_quiet hq, event_congr (g := id) hid, event_eq_self id s ho rfl]
    rfl
  case pdetEmpty => exact pdet_effects hq hs (offer_of_none false (hempty h s rfl))
  case pdetEarly =>
    obtain ⟨a, ha⟩ := hearly h s rfl
    exact pdet_effects hq hs (offer_of_early false ha h.2)
  case autoEmpty => exact automatic_effects ht ha (offer_of_none true (hempty h _ rfl))
  case autoEarly =>
    obtain ⟨a, harmed⟩ := hearly h (s.setPosition { s.position with autoRaised := false }) rfl
    exact automatic_effects ht ha (offer_of_early true harmed h.2)

/-- Settles O19: each source offers its trigger, and the offer takes the ARMED page. -/
theorem triggerStartsTheArmedPage : Obligations.TriggerStartsTheArmedPage := by
  intro s a ha he line started effect inSomeOrder
  refine ⟨fun tag h hs => ?_, fun hq hs => ?_, fun ht hraised => ?_⟩
  · obtain ⟨order, hperm, hoffer⟩ := offer_of_taken (s := s.idleAssembler .motion) false ha he
    exact ⟨order, trig_accepts (effect order) h hs hoffer (judge_of_taken (s := s.idleAssembler .motion) ha he) rfl, hperm⟩
  · obtain ⟨order, hperm, hoffer⟩ := offer_of_taken (s := s) false ha he
    exact ⟨order, pdet_effects hq hs hoffer, hperm⟩
  · obtain ⟨order, hperm, hoffer⟩ := offer_of_taken (s := s.setPosition { s.position with autoRaised := false }) true ha he
    exact ⟨order, automatic_effects ht hraised hoffer, hperm⟩

end Sys2Proof.Machine
end

section
/-! SUPPORT. Levels, bar widths, the intake page and new rows, as ROWPUT and ROWSKIP use them. -/

namespace Sys2Proof.Machine

/-! ### Packed levels (R180) -/

theorem length_flatMap_unpackByte (bs : List Byte) : (bs.flatMap unpackByte).length = 4 * bs.length := by
  induction bs with
  | nil => rfl
  | cons x bs ih =>
    have hx : (unpackByte x).length = 4 := rfl
    rw [List.flatMap_cons, List.length_append, ih, hx, List.length_cons]
    omega

theorem unpackLevels_length (n : Nat) (bs : List Byte) : (unpackLevels n bs).length = min n (4 * bs.length) := by
  rw [unpackLevels, List.length_take, length_flatMap_unpackByte]

theorem flatMap_unpackByte_getElem? : ∀ {bs : List Byte} {k j : Nat} {x : Byte}, bs[k]? = some x → j < 4 →
    (bs.flatMap unpackByte)[4 * k + j]? = some (packedLevel x j)
  | [], _, _, _, hx, _ => by simp at hx
  | y :: bs, 0, j, x, hx, hj => by
    obtain rfl : y = x := by simpa using hx
    have hy : (unpackByte y).length = 4 := rfl
    rw [List.flatMap_cons, Nat.mul_zero, Nat.zero_add, List.getElem?_append_left (by omega), unpackByte_getElem? y j hj]
  | y :: bs, k + 1, j, x, hx, hj => by
    have hy : (unpackByte y).length = 4 := rfl
    have hk : 4 * (k + 1) + j - 4 = 4 * k + j := by omega
    rw [List.flatMap_cons, List.getElem?_append_right (by omega), hy, hk]
    exact flatMap_unpackByte_getElem? (by simpa using hx) hj

theorem unpackLevels_getElem? {n : Nat} {bs : List Byte} {k j : Nat} {x : Byte} (hx : bs[k]? = some x) (hj : j < 4)
    (hn : 4 * k + j < n) : (unpackLevels n bs)[4 * k + j]? = some (packedLevel x j) := by
  rw [unpackLevels, List.getElem?_take_of_lt hn, flatMap_unpackByte_getElem? hx hj]

/-! ### The first column and width of a bar (R65) -/

theorem assigns_get (s : State) (h : LaneId) : s.assigns.get h = (s.lane h).assign := PerLane.get_map _ _ h

/-- The one lane of a bar's slot, with its first column. -/
theorem slotLane_of_unique {s : State} {h : LaneId} {a : Assign} (ha : (s.lane h).assign = some a)
    (huniq : ∀ g x, (s.lane g).assign = some x → x.bar = a.bar → x.slot = a.slot → g = h) :
    slotLane s.assigns a.bar a.slot = some (h, a.first) := by
  obtain ⟨g, c, hg⟩ := slotLane_exists ((assigns_get s h).trans ha)
  obtain ⟨x, hx, hbar, hslot, hfirst⟩ := slotLane_assigned hg
  rw [assigns_get] at hx
  obtain rfl := huniq g x hx hbar hslot
  obtain rfl : a = x := Option.some.inj (ha.symm.trans hx)
  rw [hg, hfirst]

theorem slotLane_eq_none {s : State} {b : BarId} {k : Nat}
    (h : ∀ g x, (s.lane g).assign = some x → x.bar = b → x.slot ≠ k) : slotLane s.assigns b k = none := by
  cases hs : slotLane s.assigns b k with
  | none => rfl
  | some y =>
    obtain ⟨x, hx, hbar, hslot, _⟩ := slotLane_assigned (h := y.1) (c := y.2) hs
    exact absurd hslot (h y.1 x ((assigns_get s y.1).symm.trans hx) hbar)

theorem getLast?_filterMap_append {α β : Type} {f : α → Option β} (before : List α) {x : α} {after : List α} {y : β}
    (hx : f x = some y) (hafter : ∀ z ∈ after, f z = none) :
    ((before ++ x :: after).filterMap f).getLast? = some y := by
  have hnil : after.filterMap f = [] := List.filterMap_eq_nil_iff.2 hafter
  rw [List.filterMap_append, List.filterMap_cons, hx, hnil]
  exact List.getLast?_concat

theorem barFirst_of_slot_zero {s : State} {b : BarId} {y : LaneId × Nat} (h : slotLane s.assigns b 0 = some y) :
    s.barFirst b = y.2 := by
  simp [State.barFirst, slotOrder, h]

/-- The last slot of a bar gives its width (R65). -/
theorem barWidth_of_last {s : State} {b : BarId} {k : Nat} {y : LaneId × Nat} (hk : k ≤ 3)
    (h : slotLane s.assigns b k = some y) (hafter : ∀ j, k < j → slotLane s.assigns b j = none) :
    s.barWidth b = y.2 + 1024 - s.barFirst b := by
  have hlast : (slotOrder s.assigns b).getLast? = some y := by
    have hslots : [0, 1, 2, 3] = List.range k ++ k :: (List.range' (k + 1) (3 - k)) := by
      interval_cases k <;> rfl
    rw [slotOrder, hslots]
    refine getLast?_filterMap_append _ h fun j hj => hafter j ?_
    exact (List.mem_range'_1.1 hj).1
  rw [State.barWidth, hlast]

theorem barWidth_of_no_lane {s : State} {b : BarId} (h : ∀ g x, (s.lane g).assign = some x → x.bar ≠ b) :
    s.barWidth b = 0 := by
  have hnil : slotOrder s.assigns b = [] :=
    List.filterMap_eq_nil_iff.2 fun k _ => slotLane_eq_none fun g x hx hbar => absurd hbar (h g x hx)
  rw [State.barWidth, hnil]
  rfl

/-! ### The intake page, held rows and new rows (R2, R6, R8, R15) -/

theorem isIntake_iff {s : State} {id : Nat} : s.isIntake id = true ↔ s.IsIntakeId id := by
  have hopen (p : Page) : (decide (p.delivered < p.rowCount) && p.state != .aborted) = true ↔
      p.delivered < p.rowCount ∧ p.state ≠ .aborted := by simp
  have hshut (p : Page) : (!(decide (p.delivered < p.rowCount) && p.state != .aborted)) = true ↔
      (p.delivered < p.rowCount → p.state = .aborted) := by
    by_cases h : p.state = .aborted <;> simp [h]
  have hfind (p : Page) : s.intakePage = some p ↔ (p.delivered < p.rowCount ∧ p.state ≠ .aborted) ∧
      ∃ older younger, s.queue.pages = older ++ p :: younger ∧
        ∀ o ∈ older, o.delivered < o.rowCount → o.state = .aborted := by
    simp only [State.intakePage, List.find?_eq_some_iff_append, hopen, hshut]
  have hid : s.isIntake id = true ↔ ∃ p, s.intakePage = some p ∧ p.id = id := by
    unfold State.isIntake
    cases s.intakePage <;> simp
  rw [hid]
  constructor
  · rintro ⟨p, hp, rfl⟩
    obtain ⟨⟨hrows, hstate⟩, older, younger, hpages, hold⟩ := (hfind p).1 hp
    exact ⟨older, p, younger, hpages, rfl, hrows, hstate, hold⟩
  · rintro ⟨older, p, younger, hpages, rfl, hrows, hstate, hold⟩
    exact ⟨p, (hfind p).2 ⟨⟨hrows, hstate⟩, older, younger, hpages, hold⟩, rfl⟩

theorem fillable_iff {s : State} {page row : Nat} {b : BarId} :
    s.fillable page row b = true ↔ s.HeldWithoutPart page row b := by
  unfold State.fillable State.HeldWithoutPart
  cases hr : s.row page row with
  | none => simp
  | some r =>
    unfold RowRec.lacks
    cases hx : r.parts.get b <;> simp [hx]

theorem allPassed_eq (r : RowRec) : r.allPassed = barIds.all fun b =>
    match r.parts.get b with
    | some x => x.passed
    | none => true := rfl

theorem settle_eq_retired (r : RowRec) : r.settle = { r with retired := r.retired || r.allPassed } := by
  unfold RowRec.settle
  cases h : r.allPassed <;> simp

theorem newRow_eq (q : Page) (row : Nat) (st : PartStatus) (writing : Option BarId) :
    newRow q row st writing = createdRow q row st writing := by
  have hall : (barIds.all fun b => match (q.progress.map (Option.map fun next => (⟨st, decide (row < next)⟩ : RowPart))).get b with
      | some x => x.passed
      | none => true) = barIds.all fun b => match q.progress.get b with
        | some next => decide (row < next)
        | none => true := by
    refine congrArg (List.all barIds) (funext fun b => ?_)
    rw [PerBar.get_map]
    cases q.progress.get b <;> rfl
  exact (settle_eq_retired _).trans
    (congrArg (fun x => { createdRow q row st writing with retired := x }) ((Bool.false_or _).trans hall))

end Sys2Proof.Machine
end

section
/-! ROWPUT. -/

namespace Sys2Proof.Machine

theorem barOf_of_le {n : Nat} (h : ¬3 < n) : ∃ b, barOf n = some b := by
  have hn : n ≤ 3 := by omega
  interval_cases n <;> exact ⟨_, rfl⟩

theorem appendRows_createdRow (s : State) (id row : Nat) (q : Page) (b : BarId) :
    s.appendRows id [newRow q row .absent (some b)] =
      (s.setRows (s.ring.rows ++ [createdRow q row .absent (some b)])).modPage id fun x =>
        { x with delivered := x.delivered + 1 } := by
  rw [State.appendRows, newRow_eq]
  rfl

/-- The table of a ROWPUT whose bar and page are found. -/
theorem rowput_checked {s : State} {tag : Byte} {p levels : List Byte} {act : Act} {c : Instr} {id row : Nat} {q : Page}
    {b : BarId} (h : s.listens .image tag) (hc : exec c s = .next (s.taken .image fun u => act u .image tag p))
    (hlevels : p.drop 5 = levels) (hlen : p.length = 5 + levels.length)
    (ha : let u := s.idleAssembler .image
      act u .image tag p =
        if !q.hasBar b then u.refuse .image tag .badField
        else if levels.length ≠ (u.barWidth b + 3) / 4 then u.refuse .image tag .badLength
        else if q.rowCount ≤ row then u.refuse .image tag .badField
        else if q.state = .aborted then u.refuse .image tag .wrongState
        else if u.isIntake id ∧ row = q.delivered then
          if u.freeSlots = 0 then u.refuse .image tag .full
          else (u.appendRows id [newRow q row .absent (some b)]).startWrite .image tag id row b (u.partOf b levels)
        else if u.fillable id row b then
          (u.modRow id row fun r => { r with writing := some b }).startWrite .image tag id row b (u.partOf b levels)
        else u.refuse .image tag .sequence) :
    let isNext := s.IsIntakeId id ∧ row = q.delivered
    let held := fun (u : State) => u.setBusy .image (some (.rowput tag id row b
      ⟨s.barFirst b, unpackLevels (s.barWidth b) (p.drop 5)⟩))
    Checked c s .image tag
      [(q.progress.get b = none, .badField),
       (p.length ≠ 5 + (s.barWidth b + 3) / 4, .badLength),
       (q.rowCount ≤ row, .badField),
       (q.state = .aborted, .wrongState),
       (isNext ∧ 2048 ≤ s.ring.rows.length, .full),
       (¬isNext ∧ ¬s.HeldWithoutPart id row b, .sequence)]
      ((isNext → exec c s = .next (s.taken .image fun u => held
          ((u.setRows (u.ring.rows ++ [createdRow q row .absent (some b)])).modPage id fun x =>
            { x with delivered := x.delivered + 1 }))) ∧
       (¬isNext → exec c s = .next (s.taken .image fun u => held
          (u.modRow id row fun r => { r with writing := some b })))) := by
  intro isNext held
  have hwidth : (s.idleAssembler .image).barWidth b = s.barWidth b := rfl
  have hnext : ((s.idleAssembler .image).isIntake id = true ∧ row = q.delivered) ↔ isNext :=
    and_congr_left' isIntake_iff
  have hfill : (s.idleAssembler .image).fillable id row b = true ↔ s.HeldWithoutPart id row b := fillable_iff
  have hfull : (s.idleAssembler .image).freeSlots = 0 ↔ 2048 ≤ s.ring.rows.length := Nat.sub_eq_zero_iff_le
  refine checked_cons h hc (by simp [Page.hasBar]) ha fun _ ha => ?_
  refine checked_cons h hc (by rw [hlen, hwidth]; omega) ha fun _ ha => ?_
  refine checked_cons h hc Iff.rfl ha fun _ ha => ?_
  refine checked_cons h hc Iff.rfl ha fun _ ha => ?_
  refine checked_cons_of_refuse h hc (fun ⟨hn, hf⟩ => ?_) fun hroom => ?_
  · exact ha.trans ((if_pos (hnext.2 hn)).trans (if_pos (hfull.2 hf)))
  refine checked_cons_of_refuse h hc (fun ⟨hn, hf⟩ => ?_) fun hheld => ⟨fun hn => ?_, fun hn => ?_⟩
  · exact ha.trans ((if_neg (mt hnext.1 hn)).trans (if_neg (mt hfill.1 hf)))
  · rw [if_pos (hnext.2 hn), if_neg fun hf => hroom ⟨hn, hfull.1 hf⟩, appendRows_createdRow, ← hlevels] at ha
    exact hc.trans (congrArg _ (event_congr ha))
  · have hf : s.HeldWithoutPart id row b := by
      by_contra hf
      exact hheld ⟨hn, hf⟩
    rw [if_neg (mt hnext.1 hn), if_pos (hfill.2 hf), ← hlevels] at ha
    exact hc.trans (congrArg _ (event_congr ha))

/-- Settles O20: the layout of levels, the geometry of a bar, and the branches of ROWPUT. -/
theorem rowputCreatesOrFillsARow : Obligations.RowputCreatesOrFillsARow := by
  refine ⟨fun n bs => ⟨unpackLevels_length n bs, fun k j x hx hj hn => unpackLevels_getElem? hx hj hn⟩,
    fun s b => ⟨?_, barWidth_of_no_lane⟩, fun s tag p h => ?_⟩
  · rintro h a ha rfl huniq
    have hlane := slotLane_of_unique ha huniq
    refine ⟨fun hzero => barFirst_of_slot_zero (hzero ▸ hlane), fun hslot hmax => ?_⟩
    exact barWidth_of_last hslot hlane fun j hj => slotLane_eq_none fun g x hx hbar hxj =>
      absurd (hmax g x hx hbar) (by omega)
  intro c id row
  have hc := exec_of_listens (c := c) (act := State.rowput) h rfl rfl rfl
  rcases p with _ | ⟨i1, _ | ⟨i0, _ | ⟨r1, _ | ⟨r0, _ | ⟨bar, levels⟩⟩⟩⟩⟩
  case cons.cons.cons.cons.cons =>
    refine ⟨fun hlen => absurd hlen (by simp), fun _ => ?_⟩
    have hid : u16 i1 i0 = id := u16_eq_wordAt i1 i0
    have hrow : u16 r1 r0 = row := u16_eq_wordAt r1 r0
    refine checked_cons_of_refuse h hc (fun hbar => ?_) fun hbar => ?_
    · have hnone : barOf bar.toNat = none := barOf_eq_none hbar
      simp only [State.rowput, hnone]
    refine checked_cons_of_refuse h hc (fun hpage => ?_) fun _ b q hb hq => ?_
    · obtain ⟨b, hb⟩ := barOf_of_le (n := bar.toNat) hbar
      have hpage : (s.idleAssembler .image).page id = none := hpage
      simp only [State.rowput, hid, hb, hpage]
    · have hbar : barOf bar.toNat = some b := by
        rw [← barOf_barNumber b, hb]
        rfl
      have hpage : (s.idleAssembler .image).page id = some q := hq
      refine rowput_checked h hc (levels := levels) rfl (Nat.add_comm levels.length 5) ?_
      simp only [State.rowput, hbar, hid, hrow, hpage]
  all_goals exact ⟨fun _ => refuses_of_act h hc rfl, fun hlen => absurd (by simp) hlen⟩

end Sys2Proof.Machine
end

section
/-! SUPPORT. The assignment of a page row, and the handing of a row that has become complete (R4, R82, R117, R134). -/

namespace Sys2Proof.Machine

/-! ### The assignment -/

/-- The shares of an assignment. -/
def State.sharesOf (s : State) (b : BarId) (pl : PageLoad) (st : PartStatus) : List (AssignHead × HeadShare) :=
  shares pl.fields pl.row (match st with | .present x => some x | _ => none) none
    (s.assignHeads b pl.view pl.page pl.row)

/-- The tallies of shares: pixels lost, pixels substituted. -/
def lostOf (out : List (AssignHead × HeadShare)) : Nat := (out.map (·.2.lost)).sum

def substitutedOf (out : List (AssignHead × HeadShare)) : Nat := (out.map (·.2.substituted)).sum

/-- A bar's record of a load that an assignment leaves. -/
def PageLoad.handed (pl : PageLoad) (out : List (AssignHead × HeadShare)) (suppress : Bool) : PageLoad :=
  { pl with waiting := false, lost := lostOf out, substituted := substitutedOf out, added := !suppress }

theorem handed_handed (pl : PageLoad) (out : List (AssignHead × HeadShare)) (suppress : Bool) :
    pl.Handed (pl.handed out suppress) suppress := rfl

section Assign

variable (s : State) (b : BarId) (pl : PageLoad) (st : PartStatus)

theorem assignPage_unfold :
    s.assignPage b pl st =
      let u := (s.deliver (st == .blank) (s.sharesOf b pl st)).modBar b fun x =>
        { x with next := .page (pl.handed (s.sharesOf b pl st) s.queue.suppress) }
      if s.queue.suppress = false then
        u.modPage pl.page (·.addTallies (lostOf (s.sharesOf b pl st)) (substitutedOf (s.sharesOf b pl st)))
      else u := by
  have h : (!s.queue.suppress) = true ↔ s.queue.suppress = false := by simp
  simp only [← h]
  cases st <;> rfl

/-- An assignment moves the lanes, the bar's load and the tallies of its page alone. -/
theorem assignPage_eq :
    s.assignPage b pl st = ((s.setPages (s.assignPage b pl st).queue.pages).modBar b fun x =>
      { x with next := .page (pl.handed (s.sharesOf b pl st) s.queue.suppress) }).setLanes
        (s.assignPage b pl st).lanes := by
  rw [assignPage_unfold, deliver_eq]
  dsimp only
  split <;> rfl

theorem assignPage_pages :
    (s.assignPage b pl st).queue.pages = s.queue.pages.map fun q =>
      if q.id = pl.page ∧ s.queue.suppress = false then
        q.addTallies (lostOf (s.sharesOf b pl st)) (substitutedOf (s.sharesOf b pl st))
      else q := by
  rw [assignPage_unfold, deliver_eq]
  dsimp only
  split
  next h =>
    refine List.map_congr_left fun q _ => ?_
    by_cases hq : q.id = pl.page <;> simp [hq, h]
  next h => simp [h]

end Assign

/-! ### Handing a row to a bar -/

theorem row_eq_some {s : State} {page row : Nat} {r : RowRec} (h : s.row page row = some r) :
    r.page = page ∧ r.row = row := by
  simpa [RowRec.isRow] using List.find?_some h

theorem handTo_of_ready {s : State} {page row : Nat} {b : BarId} {pl : PageLoad} {x : RowPart}
    (h : s.RowIsReady page row b pl x) : s.handTo page row b = s.assignPage b pl x.status := by
  obtain ⟨hnext, hpage, hrow, hwait, r, hr, hcomplete, hx⟩ := h
  have hc : r.isComplete = true := (isComplete_iff r).2 hcomplete
  simp only [State.handTo, hnext, hr, hpage, hrow, hwait, hc, and_self, if_true, hx]

theorem handTo_of_not_ready {s : State} {page row : Nat} {b : BarId}
    (h : ∀ pl x, ¬s.RowIsReady page row b pl x) : s.handTo page row b = s := by
  unfold State.handTo
  split
  next pl r hnext hr =>
    split
    next hc =>
      obtain ⟨hpage, hrow, hwait, hcomplete⟩ := hc
      split
      next x hx => exact absurd ⟨hnext, hpage, hrow, hwait, r, hr, (isComplete_iff r).1 hcomplete, hx⟩ (h pl x)
      next => rfl
    next => rfl
  next => rfl

/-- A page record after tallies were added to it, or were not. -/
def Page.Tallied (q q' : Page) : Prop :=
  q' = { q with lost := q'.lost, substituted := q'.substituted, degraded := q'.degraded }

theorem Page.Tallied.refl (q : Page) : q.Tallied q := rfl

theorem Page.Tallied.trans {q q' q'' : Page} (h : q.Tallied q') (k : q'.Tallied q'') : q.Tallied q'' := by
  rw [Page.Tallied] at h k
  rw [h] at k
  exact k

theorem addTallies_tallied (q : Page) (lost sub : Nat) : q.Tallied (q.addTallies lost sub) := rfl

/-- What handing rows to bars leaves beside the bars' loads and the lanes. -/
structure HandFrame (s t : State) : Prop where
  position : t.position = s.position
  ring : t.ring = s.ring
  lists : t.lists = s.lists
  library : t.library = s.library
  links : t.links = s.links
  sent : t.sent = s.sent
  suppress : t.queue.suppress = s.queue.suppress
  page : ∀ j q, s.page j = some q → ∃ q', t.page j = some q' ∧ q.Tallied q'

namespace HandFrame

variable {s t u : State}

theorem refl (s : State) : HandFrame s s := ⟨rfl, rfl, rfl, rfl, rfl, rfl, rfl, fun _ q hq => ⟨q, hq, .refl q⟩⟩

theorem trans (h : HandFrame s t) (k : HandFrame t u) : HandFrame s u where
  position := k.position.trans h.position
  ring := k.ring.trans h.ring
  lists := k.lists.trans h.lists
  library := k.library.trans h.library
  links := k.links.trans h.links
  sent := k.sent.trans h.sent
  suppress := k.suppress.trans h.suppress
  page j q hq := by
    obtain ⟨q', hq', htallied⟩ := h.page j q hq
    obtain ⟨q'', hq'', htallied'⟩ := k.page j q' hq'
    exact ⟨q'', hq'', htallied.trans htallied'⟩

theorem assignPage (s : State) (b : BarId) (pl : PageLoad) (st : PartStatus) : HandFrame s (s.assignPage b pl st) := by
  have he := assignPage_eq s b pl st
  refine ⟨?_, ?_, ?_, ?_, ?_, ?_, ?_, fun j q hq => ?_⟩
  case refine_8 =>
    have hids : ∀ p : Page, (if p.id = pl.page ∧ s.queue.suppress = false then
        p.addTallies (lostOf (s.sharesOf b pl st)) (substitutedOf (s.sharesOf b pl st)) else p).id = p.id := by
      intro p
      split <;> rfl
    rw [State.page, assignPage_pages, List.find?_map]
    have hfind : s.queue.pages.find? ((fun p : Page => p.id == j) ∘ fun p =>
        if p.id = pl.page ∧ s.queue.suppress = false then
          p.addTallies (lostOf (s.sharesOf b pl st)) (substitutedOf (s.sharesOf b pl st)) else p) = some q := by
      refine (List.find?_congr fun p _ => ?_).trans hq
      rw [Function.comp_apply, hids]
    rw [hfind]
    refine ⟨_, rfl, ?_⟩
    dsimp only
    split
    · exact addTallies_tallied ..
    · exact .refl q
  all_goals rw [he]; rfl

theorem handTo (s : State) (page row : Nat) (b : BarId) : HandFrame s (s.handTo page row b) := by
  by_cases h : ∃ pl x, s.RowIsReady page row b pl x
  · obtain ⟨pl, x, h⟩ := h
    rw [handTo_of_ready h]
    exact assignPage s b pl x.status
  · rw [handTo_of_not_ready fun pl x hx => h ⟨pl, x, hx⟩]
    exact refl s

theorem handTo_foldl (page row : Nat) : ∀ (bs : List BarId) (s : State),
    HandFrame s (bs.foldl (fun u b => u.handTo page row b) s)
  | [], s => refl s
  | b :: bs, s => (handTo s page row b).trans (handTo_foldl page row bs _)

theorem handRow (s : State) (page row : Nat) : HandFrame s (s.handRow page row) := handTo_foldl page row barIds s

end HandFrame

/-! ### The bars' loads -/

theorem assignPage_bar_same (s : State) (b : BarId) (pl : PageLoad) (st : PartStatus) :
    (s.assignPage b pl st).bar b =
      { s.bar b with next := .page (pl.handed (s.sharesOf b pl st) s.queue.suppress) } := by
  have h := congrArg (fun u : State => u.bar b) (assignPage_eq s b pl st)
  exact h.trans (modBar_bar_same (s.setPages (s.assignPage b pl st).queue.pages) b fun x =>
    { x with next := .page (pl.handed (s.sharesOf b pl st) s.queue.suppress) })

theorem assignPage_bar_ne (s : State) {b c : BarId} (pl : PageLoad) (st : PartStatus) (h : c ≠ b) :
    (s.assignPage b pl st).bar c = s.bar c := by
  have he := congrArg (fun u : State => u.bar c) (assignPage_eq s b pl st)
  exact he.trans (modBar_bar_ne (s.setPages (s.assignPage b pl st).queue.pages) (fun x =>
    { x with next := .page (pl.handed (s.sharesOf b pl st) s.queue.suppress) }) h)

theorem handTo_bar_ne (s : State) (page row : Nat) {b c : BarId} (h : c ≠ b) :
    (s.handTo page row b).bar c = s.bar c := by
  by_cases hr : ∃ pl x, s.RowIsReady page row b pl x
  · obtain ⟨pl, x, hr⟩ := hr
    rw [handTo_of_ready hr, assignPage_bar_ne s pl x.status h]
  · rw [handTo_of_not_ready fun pl x hx => hr ⟨pl, x, hx⟩]

theorem handTo_foldl_bar_of_not_mem (page row : Nat) {b : BarId} : ∀ {bs : List BarId} (s : State), b ∉ bs →
    (bs.foldl (fun u c => u.handTo page row c) s).bar b = s.bar b
  | [], _, _ => rfl
  | c :: bs, s, h => by
    obtain ⟨hc, hbs⟩ := not_or.1 (mt List.mem_cons.2 h)
    exact (handTo_foldl_bar_of_not_mem page row _ hbs).trans (handTo_bar_ne s page row hc)

/-- The bars before a bar and those after it. -/
theorem barIds_split (b : BarId) : ∃ before after, barIds = before ++ b :: after ∧ b ∉ before ∧ b ∉ after := by
  cases b
  case b0 => exact ⟨[], [.b1, .b2, .b3], rfl, by decide, by decide⟩
  case b1 => exact ⟨[.b0], [.b2, .b3], rfl, by decide, by decide⟩
  case b2 => exact ⟨[.b0, .b1], [.b3], rfl, by decide, by decide⟩
  case b3 => exact ⟨[.b0, .b1, .b2], [], rfl, by decide, by decide⟩

/-- A bar is handed a row on its own: the other bars' loads move nothing of it. -/
theorem handRow_bar (s : State) (page row : Nat) (b : BarId) :
    ∃ u, HandFrame s u ∧ u.bar b = s.bar b ∧ (s.handRow page row).bar b = (u.handTo page row b).bar b := by
  obtain ⟨before, after, hbars, hbefore, hafter⟩ := barIds_split b
  refine ⟨before.foldl (fun u c => u.handTo page row c) s, .handTo_foldl page row before s,
    handTo_foldl_bar_of_not_mem page row s hbefore, ?_⟩
  rw [State.handRow, hbars, List.foldl_append]
  exact handTo_foldl_bar_of_not_mem page row _ hafter

/-- A bar that waits for a row which the ring holds complete is handed it. -/
theorem handRow_of_ready {s : State} {page row : Nat} {b : BarId} {pl : PageLoad} {x : RowPart}
    (h : s.RowIsReady page row b pl x) :
    ∃ pl', ((s.handRow page row).bar b).next = .page pl' ∧ pl.Handed pl' s.queue.suppress := by
  obtain ⟨u, hframe, hbar, hhand⟩ := handRow_bar s page row b
  have hready : u.RowIsReady page row b pl x := by
    obtain ⟨hnext, hpage, hrow, hwait, r, hr, hrest⟩ := h
    refine ⟨by rw [hbar, hnext], hpage, hrow, hwait, r, ?_, hrest⟩
    rw [State.row, hframe.ring]
    exact hr
  rw [hhand, handTo_of_ready hready, assignPage_bar_same, ← hframe.suppress]
  exact ⟨_, rfl, handed_handed ..⟩

/-- A bar that does not wait for the row keeps its load. -/
theorem handRow_bar_of_not_waiting {s : State} {page row : Nat} {b : BarId}
    (h : ∀ pl, (s.bar b).next = .page pl → ¬(pl.page = page ∧ pl.row = row ∧ pl.waiting = true)) :
    (s.handRow page row).bar b = s.bar b := by
  obtain ⟨u, _, hbar, hhand⟩ := handRow_bar s page row b
  rw [hhand, handTo_of_not_ready, hbar]
  rintro pl x ⟨hnext, hpage, hrow, hwait, _⟩
  exact h pl (hbar ▸ hnext) ⟨hpage, hrow, hwait⟩

end Sys2Proof.Machine
end

section
/-! SUPPORT. The end of a ROWPUT's write (R11), and the rows of a ROWSKIP (R13). -/

namespace Sys2Proof.Machine

theorem event_page (f : State → State) (s : State) (j : Nat) : (event f s).page j = (f s).page j := by
  rw [State.page, event_pages, State.page]

theorem event_bar (f : State → State) (s : State) (b : BarId) : (event f s).bar b = (f s).bar b :=
  congrArg (PerBar.get · b) (event_bars f s)

theorem event_lane (f : State → State) (s : State) (h : LaneId) : (event f s).lane h = (f s).lane h :=
  congrArg (PerLane.get · h) (event_lanes f s)

theorem event_busy (f : State → State) (s : State) (l : LinkId) :
    ((event f s).link l).busy = ((f s).link l).busy := by rw [event_link]

/-- The rows held after a part of one is stored. -/
def storedRows (s : State) (page row : Nat) (b : BarId) (part : PlanePart) : List RowRec :=
  s.ring.rows.map fun r => if r.page = page ∧ r.row = row then
    { r with
      parts := r.parts.set b ((r.parts.get b).map fun x => { x with status := .present part })
      writing := none }
  else r

theorem modRow_rows (s : State) (page row : Nat) (f : RowRec → RowRec) :
    (s.modRow page row f).ring.rows = s.ring.rows.map fun r => if r.page = page ∧ r.row = row then f r else r := by
  refine List.map_congr_left fun r _ => ?_
  simp only [RowRec.isRow, Bool.and_eq_true, beq_iff_eq]

/-- A row is held complete exactly where its record is. -/
theorem rowComplete_iff (s : State) (page row : Nat) :
    s.rowComplete page row = true ↔ RowIsComplete s.ring.rows page row := by
  have hrow : s.row page row = s.ring.rows.find? fun r => r.page == page && r.row == row := rfl
  rw [State.rowComplete, RowIsComplete, ← hrow]
  cases s.row page row with
  | none => simp
  | some r => simp [isComplete_iff]

/-! ### A row that becomes complete -/

theorem completeRow_frame (s : State) (page row : Nat) :
    HandFrame (s.modPage page fun p => { p with complete := p.complete + 1 }) (s.completeRow page row) :=
  .handRow _ page row

theorem completeRow_page {s : State} {page row : Nat} {q : Page} (hq : s.page page = some q) :
    ∃ q', (s.completeRow page row).page page = some q' ∧ ({ q with complete := q.complete + 1 } : Page).Tallied q' := by
  refine (completeRow_frame s page row).page page _ ?_
  rw [modPage_page s page (fun p => { p with complete := p.complete + 1 }) (fun _ => rfl), hq, Option.map_some,
    if_pos (beq_iff_eq.2 (page_id hq))]

theorem completeRow_of_ready {s : State} {page row : Nat} {b : BarId} {pl : PageLoad} {x : RowPart}
    (h : s.RowIsReady page row b pl x) :
    ∃ pl', ((s.completeRow page row).bar b).next = .page pl' ∧ pl.Handed pl' s.queue.suppress :=
  handRow_of_ready (s := s.modPage page fun p => { p with complete := p.complete + 1 }) h

theorem completeRow_bar_of_not_waiting {s : State} {page row : Nat} {b : BarId}
    (h : ∀ pl, (s.bar b).next = .page pl → ¬(pl.page = page ∧ pl.row = row ∧ pl.waiting = true)) :
    (s.completeRow page row).bar b = s.bar b :=
  handRow_bar_of_not_waiting (s := s.modPage page fun p => { p with complete := p.complete + 1 }) h

/-! ### The end of a write -/

/-- The state in which a write has ended and its part is stored. -/
def State.storeWrite (s : State) (page row : Nat) (b : BarId) (part : PlanePart) : State :=
  ((s.setStore .free).setBusy .image none).modRow page row (·.store b part)

theorem storeWrite_rows (s : State) (page row : Nat) (b : BarId) (part : PlanePart) :
    (s.storeWrite page row b part).ring.rows = storedRows s page row b part :=
  modRow_rows _ page row _

/-- A row that is held complete counts in its page and is handed to the bars that wait for it. -/
def State.completeIf (s : State) (page row : Nat) : State :=
  if s.rowComplete page row then s.completeRow page row else s

theorem writeComplete_of_write {s : State} {tag : Byte} {page row : Nat} {b : BarId} {part : PlanePart}
    (hstore : s.ring.store = .write) (hbusy : (s.link .image).busy = some (.rowput tag page row b part)) :
    s.writeComplete = (((s.storeWrite page row b part).completeIf page row).release).replyFree .image tag := by
  simp only [State.writeComplete, hstore, hbusy]
  rfl

theorem writeComplete_of_none {s : State} (h : s.ring.store ≠ .write ∨
    ∀ tag page row b part, (s.link .image).busy ≠ some (.rowput tag page row b part)) : s.writeComplete = s := by
  unfold State.writeComplete
  split
  next hstore hbusy => exact absurd hbusy (h.elim (absurd hstore) (· _ _ _ _ _))
  next => rfl

theorem completeIf_frame (s : State) (page row : Nat) :
    ∃ complete : Nat → Nat, HandFrame (s.modPage page fun p => { p with complete := complete p.complete }) (s.completeIf page row) ∧
      (RowIsComplete s.ring.rows page row → complete = (· + 1)) ∧
      (¬RowIsComplete s.ring.rows page row → complete = id) := by
  rw [← rowComplete_iff]
  by_cases h : s.rowComplete page row = true
  · refine ⟨(· + 1), ?_, fun _ => rfl, fun hn => absurd h hn⟩
    rw [State.completeIf, if_pos h]
    exact completeRow_frame s page row
  · refine ⟨id, ?_, fun hc => absurd hc h, fun _ => rfl⟩
    have hid : s.modPage page (fun p => { p with complete := id p.complete }) = s := by
      have hpages : s.queue.pages.map (fun p => if p.id == page then { p with complete := id p.complete } else p) =
          s.queue.pages := (List.map_congr_left fun p _ => by split <;> rfl).trans (List.map_id _)
      rw [State.modPage, hpages]
      rfl
    rw [State.completeIf, if_neg h, hid]
    exact .refl s

end Sys2Proof.Machine
end

section
/-! The end of a ROWPUT's write. -/

namespace Sys2Proof.Machine

/-- Settles O21: the part is stored, a row it completes is counted and handed, and due rows are released. -/
theorem rowputWriteCompletes : Obligations.RowputWriteCompletes := by
  refine ⟨fun s tag page row b part hq hstore hbusy => ?_, fun s hq ho h => ?_⟩
  case refine_2 =>
    have hexec : exec .rowputWriteComplete s = .next (s.after State.writeComplete) := rfl
    rw [hexec, after_of_quiet _ _ hq, event_congr (g := id) (writeComplete_of_none h), event_eq_self id s ho rfl]
    rfl
  let v := s.storeWrite page row b part
  let w := v.completeIf page row
  have hrows : v.ring.rows = storedRows s page row b part := storeWrite_rows s page row b part
  obtain ⟨complete, hframe, hcomplete, hincomplete⟩ := completeIf_frame v page row
  rw [hrows] at hcomplete hincomplete
  have hring : w.ring = { rows := storedRows s page row b part, roomMark := s.ring.roomMark, store := .free } := by
    rw [hframe.ring, ← hrows]
    rfl
  have hlink : (w.link .image).busy = none := by
    have hl : w.link .image = (s.setBusy .image none).link .image := congrArg (PerLink.get · .image) hframe.links
    rw [hl, setBusy_link, if_pos rfl]
  have hwrite := writeComplete_of_write hstore hbusy
  have field {α : Type} (get : State → α) (hevent : ∀ f, get (event f s) = get (f s)) :
      get (event State.writeComplete s) = get (w.release.replyFree .image tag) :=
    (hevent _).trans (congrArg get hwrite)
  have hreleased : (w.release).ring.rows = released (storedRows s page row b part) := by
    rw [State.release, setRows_rows, hring]
    rfl
  have hexec : exec .rowputWriteComplete s = .next (event State.writeComplete s) :=
    congrArg Host.Outcome.next (after_of_quiet State.writeComplete s hq)
  refine ⟨event State.writeComplete s, hexec, ?ring, fun q hq => ?page,
    fun r hr hc c pl hnext hpl hplrow hwait hpart => ?handed, ?busy, ?sent, ?_, ?_, ?_⟩
  case ring =>
    rw [field State.ring fun f => event_ring f s]
    refine (congrArg (fun r : Ring => { r with rows := released r.rows }) hring)
  case page =>
    have hpage : (v.modPage page fun p => { p with complete := complete p.complete }).page page =
        some { q with complete := complete q.complete } := by
      rw [modPage_page v page (fun p => { p with complete := complete p.complete }) (fun _ => rfl)]
      have hv : v.page page = some q := hq
      rw [hv, Option.map_some, if_pos (beq_iff_eq.2 (page_id hq))]
    obtain ⟨q', hq', htallied⟩ := hframe.page page _ hpage
    refine ⟨q', (field (·.page page) fun f => event_page f s page).trans hq', ?_, fun hc => ?_,
      fun hn => ?_⟩
    · rw [htallied]
    · rw [htallied, hcomplete hc]
    · rw [htallied, hincomplete hn]
      rfl
  case handed =>
    obtain ⟨x, hx⟩ := Option.ne_none_iff_exists'.1 hpart
    have hready : v.RowIsReady page row c pl x := by
      obtain ⟨r', hr', hparts⟩ := hc
      obtain rfl : r = r' := Option.some.inj (hr.symm.trans hr')
      refine ⟨hnext, hpl, hplrow, hwait, r, ?_, hparts, hx⟩
      rw [State.row, hrows]
      exact hr
    have hw : w = v.completeRow page row := if_pos ((rowComplete_iff v page row).2 (hrows ▸ hc))
    obtain ⟨pl', hpl', hhanded⟩ := completeRow_of_ready hready
    refine ⟨pl', (congrArg Bar.next (field (·.bar c) fun f => event_bar f s c)).trans ?_, hhanded⟩
    exact (congrArg (fun u : State => (u.bar c).next) hw).trans hpl'
  case busy => exact (field (fun u => (u.link .image).busy) fun f => event_busy f s .image).trans hlink
  case sent =>
    rw [field State.sent fun f => event_sent f s]
    have hsent : w.release.sent = s.sent := hframe.sent
    have hfree : w.release.freeSlots = 2048 - (released (storedRows s page row b part)).length :=
      congrArg (2048 - ·.length) hreleased
    rw [State.replyFree, reply_sent, hsent, hfree]
    rfl
  · exact (field State.position fun f => event_position f s).trans hframe.position
  · exact (field State.lists fun f => event_lists f s).trans hframe.lists
  · exact (field State.library fun f => event_library f s).trans hframe.library

end Sys2Proof.Machine
end

section
/-! SUPPORT. The rows of a ROWSKIP, completed one after another (R13, R4). -/

namespace Sys2Proof.Machine

/-- A run of rows of a page is completed, the oldest first. -/
def State.completeRun (s : State) (page first : Nat) (is : List Nat) : State :=
  is.foldl (fun u i => u.completeRow page (first + i)) s

theorem completeRun_cons (s : State) (page first i : Nat) (is : List Nat) :
    s.completeRun page first (i :: is) = (s.completeRow page (first + i)).completeRun page first is := rfl

theorem completeRun_append (s : State) (page first : Nat) (is js : List Nat) :
    s.completeRun page first (is ++ js) = (s.completeRun page first is).completeRun page first js :=
  List.foldl_append

/-- A run of completed rows counts in its page, and leaves what handing rows leaves. -/
theorem completeRun_frame (page first : Nat) : ∀ (is : List Nat) (s : State),
    HandFrame (s.modPage page fun p => { p with complete := p.complete + is.length }) (s.completeRun page first is)
  | [], s => by
    have hid : s.modPage page (fun p => { p with complete := p.complete + ([] : List Nat).length }) = s := by
      have hpages : s.queue.pages.map (fun p => if p.id == page then { p with complete := p.complete + 0 } else p) =
          s.queue.pages := (List.map_congr_left fun p _ => by split <;> rfl).trans (List.map_id _)
      exact congrArg (fun ps => s.setPages ps) hpages
    rw [hid]
    exact .refl s
  | i :: is, s => by
    have hstep := completeRow_frame s page (first + i)
    have hrest := completeRun_frame page first is (s.completeRow page (first + i))
    refine ⟨hrest.position.trans hstep.position, hrest.ring.trans hstep.ring, hrest.lists.trans hstep.lists,
      hrest.library.trans hstep.library, hrest.links.trans hstep.links, hrest.sent.trans hstep.sent,
      hrest.suppress.trans hstep.suppress, fun j q hq => ?_⟩
    rw [modPage_page s page (fun p => { p with complete := p.complete + (i :: is).length }) (fun _ => rfl)] at hq
    obtain ⟨q₀, hq₀, rfl⟩ := Option.map_eq_some_iff.1 hq
    have hone : (s.modPage page fun p => { p with complete := p.complete + 1 }).page j =
        some (if q₀.id == page then { q₀ with complete := q₀.complete + 1 } else q₀) := by
      rw [modPage_page s page (fun p => { p with complete := p.complete + 1 }) (fun _ => rfl), hq₀]
      rfl
    obtain ⟨q₁, hq₁, ht₁⟩ := hstep.page j _ hone
    have hmany : ((s.completeRow page (first + i)).modPage page fun p => { p with complete := p.complete + is.length }).page j =
        some (if q₁.id == page then { q₁ with complete := q₁.complete + is.length } else q₁) := by
      rw [modPage_page _ page (fun p => { p with complete := p.complete + is.length }) (fun _ => rfl), hq₁]
      rfl
    obtain ⟨q₂, hq₂, ht₂⟩ := hrest.page j _ hmany
    refine ⟨q₂, hq₂, ?_⟩
    have hid : q₁.id = q₀.id := by
      rw [ht₁]
      split <;> rfl
    rw [hid] at ht₂
    by_cases hp : q₀.id = page
    · simp only [hp, beq_self_eq_true, if_true, List.length_cons] at ht₁ ht₂ ⊢
      rw [ht₁] at ht₂
      rw [Page.Tallied] at ht₂ ⊢
      rw [ht₂]
      simp only [Page.mk.injEq, true_and, and_true]
      omega
    · simp only [beq_false_of_ne hp, if_false, Bool.false_eq_true] at ht₁ ht₂ ⊢
      exact ht₁.trans ht₂

theorem completeRun_bar_of_not_waiting {page first : Nat} {b : BarId} : ∀ {is : List Nat} {s : State},
    (∀ pl, (s.bar b).next = .page pl → ∀ i ∈ is, ¬(pl.page = page ∧ pl.row = first + i ∧ pl.waiting = true)) →
    (s.completeRun page first is).bar b = s.bar b
  | [], _, _ => rfl
  | i :: is, s, h => by
    have hstep : (s.completeRow page (first + i)).bar b = s.bar b :=
      completeRow_bar_of_not_waiting fun pl hpl => h pl hpl i List.mem_cons_self
    rw [completeRun_cons]
    refine (completeRun_bar_of_not_waiting fun pl hpl j hj => ?_).trans hstep
    exact h pl (hstep ▸ hpl) j (List.mem_cons_of_mem i hj)

theorem completeRun_ring (s : State) (page first : Nat) (is : List Nat) :
    (s.completeRun page first is).ring = s.ring := (completeRun_frame page first is s).ring

theorem completeRun_suppress (s : State) (page first : Nat) (is : List Nat) :
    (s.completeRun page first is).queue.suppress = s.queue.suppress := (completeRun_frame page first is s).suppress

/-- A bar that waits for a row of the run is handed it. -/
theorem completeRun_of_ready {s : State} {page first count i : Nat} {b : BarId} {pl : PageLoad} {x : RowPart}
    (hi : i < count) (h : s.RowIsReady page (first + i) b pl x) :
    ∃ pl', ((s.completeRun page first (List.range count)).bar b).next = .page pl' ∧ pl.Handed pl' s.queue.suppress := by
  obtain ⟨before, after, hrange⟩ := List.append_of_mem (List.mem_range.2 hi)
  have hbefore : i ∉ before := by
    have hnodup : (before ++ i :: after).Nodup := hrange ▸ List.nodup_range
    exact fun hmem => (List.nodup_append.1 hnodup).2.2 i hmem i List.mem_cons_self rfl
  obtain ⟨hnext, hpage, hrow, hwait, r, hr, hrest⟩ := h
  have hkept : (s.completeRun page first before).bar b = s.bar b := by
    refine completeRun_bar_of_not_waiting fun pl' hpl' j hj hw => hbefore ?_
    obtain rfl : pl = pl' := BarNext.page.inj (hnext.symm.trans hpl')
    obtain rfl : i = j := by omega
    exact hj
  have hready : (s.completeRun page first before).RowIsReady page (first + i) b pl x := by
    refine ⟨by rw [hkept, hnext], hpage, hrow, hwait, r, ?_, hrest⟩
    rw [State.row, completeRun_ring]
    exact hr
  obtain ⟨pl', hpl', hhanded⟩ := completeRow_of_ready hready
  rw [completeRun_suppress] at hhanded
  rw [hrange, completeRun_append, completeRun_cons]
  refine ⟨pl', ?_, hhanded⟩
  rw [completeRun_bar_of_not_waiting, hpl']
  rintro pl'' hpl'' j _ ⟨_, _, hwait''⟩
  obtain rfl : pl' = pl'' := BarNext.page.inj (hpl'.symm.trans hpl'')
  rw [hhanded] at hwait''
  exact absurd hwait'' Bool.false_ne_true

/-! ### The rows created -/

/-- A created row of the run is found where the ring held none before. -/
theorem find_createdRow {rows : List RowRec} {q : Page} {first count i : Nat} (hi : i < count)
    (hnone : ∀ r ∈ rows, r.page = q.id → r.row ≠ first + i) :
    (rows ++ (List.range count).map fun j => createdRow q (first + j) .blank none).find? (·.isRow q.id (first + i)) =
      some (createdRow q (first + i) .blank none) := by
  have hold : rows.find? (·.isRow q.id (first + i)) = none := by
    refine List.find?_eq_none.2 fun r hr hrow => ?_
    simp only [RowRec.isRow, Bool.and_eq_true, beq_iff_eq] at hrow
    exact hnone r hr hrow.1 hrow.2
  have hrow (j : Nat) : (createdRow q (first + j) .blank none).isRow q.id (first + i) = decide (j = i) := by
    simp [RowRec.isRow, createdRow, beq_eq_decide]
  rw [List.find?_append, hold, Option.none_or, List.find?_map]
  have hfind : (List.range count).find? ((·.isRow q.id (first + i)) ∘ fun j => createdRow q (first + j) .blank none) =
      some i := by
    rw [List.find?_range_eq_some]
    refine ⟨by simp [hrow], by simpa using hi, fun j hj => ?_⟩
    simp [hrow, hj.ne]
  rw [hfind]
  rfl

theorem createdRow_part {q : Page} {row : Nat} {b : BarId} (hb : q.progress.get b ≠ none) :
    ∃ x, (createdRow q row .blank none).parts.get b = some x := by
  obtain ⟨n, hn⟩ := Option.ne_none_iff_exists'.1 hb
  exact ⟨⟨.blank, decide (row < n)⟩, by rw [createdRow, PerBar.get_map, hn]; rfl⟩

theorem createdRow_not_absent {q : Page} {row : Nat} {b : BarId} {x : RowPart}
    (h : (createdRow q row .blank none).parts.get b = some x) : x.status ≠ .absent := by
  rw [createdRow, PerBar.get_map] at h
  obtain ⟨n, _, rfl⟩ := Option.map_eq_some_iff.1 h
  exact nofun

end Sys2Proof.Machine
end

section
/-! ROWSKIP. -/

namespace Sys2Proof.Machine

theorem rowskip_of_length_ne (s : State) (l : LinkId) (tag : Byte) {p : List Byte} (h : p.length ≠ 6) :
    s.rowskip l tag p = s.refuse l tag .badLength := by
  rw [State.rowskip]
  rintro _ _ _ _ _ _ rfl
  exact h rfl

theorem rowskip_of_length (s : State) (l : LinkId) (tag : Byte) : ∀ {p : List Byte}, p.length = 6 →
    s.rowskip l tag p =
      if wordAt p 4 = 0 ∨ 256 < wordAt p 4 then s.refuse l tag .badField
      else match s.page (wordAt p 0) with
        | none => s.refuse l tag .notFound
        | some q =>
          if q.rowCount < wordAt p 2 + wordAt p 4 then s.refuse l tag .badField
          else if q.state = .aborted then s.refuse l tag .wrongState
          else if !s.isIntake (wordAt p 0) ∨ wordAt p 2 ≠ q.delivered then s.refuse l tag .sequence
          else if s.freeSlots < wordAt p 4 then s.refuse l tag .full
          else (s.skipRows q (wordAt p 2) (wordAt p 4)).replyFree l tag
  | [i1, i0, f1, f0, c1, c0], _ => by
    have hid : u16 i1 i0 = wordAt [i1, i0, f1, f0, c1, c0] 0 := u16_eq_wordAt i1 i0
    have hfirst : u16 f1 f0 = wordAt [i1, i0, f1, f0, c1, c0] 2 := u16_eq_wordAt f1 f0
    have hcount : u16 c1 c0 = wordAt [i1, i0, f1, f0, c1, c0] 4 := u16_eq_wordAt c1 c0
    simp only [State.rowskip, hid, hfirst, hcount] <;> rfl

/-- The state in which the rows of a ROWSKIP stand in the ring. -/
def State.appendBlank (s : State) (q : Page) (first count : Nat) : State :=
  s.appendRows q.id (blankRows q first count)

theorem appendBlank_rows (s : State) (q : Page) (first count : Nat) :
    (s.appendBlank q first count).ring.rows =
      s.ring.rows ++ (List.range count).map fun i => createdRow q (first + i) .blank none := by
  have hrows : blankRows q first count = (List.range count).map fun i => createdRow q (first + i) .blank none :=
    List.map_congr_left fun i _ => newRow_eq ..
  rw [← hrows]
  rfl

theorem appendBlank_page {s : State} {q : Page} {first count : Nat} (hq : s.page q.id = some q) :
    (s.appendBlank q first count).page q.id = some { q with delivered := q.delivered + count } := by
  have hlen : (blankRows q first count).length = count := by simp [blankRows]
  have h := modPage_page (s.setRows (s.ring.rows ++ blankRows q first count)) q.id
    (fun p => { p with delivered := p.delivered + (blankRows q first count).length }) (fun _ => rfl) q.id
  have hpage : (s.setRows (s.ring.rows ++ blankRows q first count)).page q.id = some q := hq
  rw [hpage, Option.map_some, if_pos (beq_self_eq_true _)] at h
  exact h.trans (by rw [hlen])

theorem skipRows_eq (s : State) (q : Page) (first count : Nat) :
    s.skipRows q first count = ((s.appendBlank q first count).completeRun q.id first (List.range count)).release := rfl

/-- What an accepted ROWSKIP leaves, before the outputs follow. -/
theorem skipRows_spec {s : State} {q : Page} {first count : Nat} (hq : s.page q.id = some q) :
    let t := s.skipRows q first count
    let rows := released (s.ring.rows ++ (List.range count).map fun i => createdRow q (first + i) .blank none)
    t.ring = { s.ring with rows := rows } ∧
    (∃ q', t.page q.id = some q' ∧ q' = { q with
      delivered := q.delivered + count, complete := q.complete + count
      lost := q'.lost, substituted := q'.substituted, degraded := q'.degraded }) ∧
    (∀ i b pl, i < count → (∀ r ∈ s.ring.rows, r.page = q.id → r.row ≠ first + i) →
      (s.bar b).next = .page pl → pl.page = q.id → pl.row = first + i → pl.waiting = true →
      q.progress.get b ≠ none → ∃ pl', (t.bar b).next = .page pl' ∧ pl.Handed pl' s.queue.suppress) ∧
    t.sent = s.sent ∧ t.position = s.position ∧ t.lists = s.lists ∧ t.library = s.library := by
  intro t rows
  let u := s.appendBlank q first count
  have hframe := completeRun_frame q.id first (List.range count) u
  have hrows := appendBlank_rows s q first count
  refine ⟨?ring, ?page, fun i b pl hi hnone hnext hpl hrow hwait hb => ?handed, hframe.sent, hframe.position, hframe.lists,
    hframe.library⟩
  case ring =>
    have hring : (u.completeRun q.id first (List.range count)).ring = u.ring := hframe.ring
    have ht : t.ring = { (u.completeRun q.id first (List.range count)).ring with
        rows := released (u.completeRun q.id first (List.range count)).ring.rows } := rfl
    rw [ht, hring, hrows]
    rfl
  case page =>
    have hpage := modPage_page u q.id (fun p => { p with complete := p.complete + (List.range count).length }) (fun _ => rfl) q.id
    rw [appendBlank_page hq, Option.map_some, if_pos (beq_self_eq_true _)] at hpage
    obtain ⟨q', hq', ht⟩ := hframe.page q.id _ hpage
    rw [List.length_range] at ht
    exact ⟨q', hq', ht⟩
  case handed =>
    obtain ⟨x, hx⟩ := createdRow_part (row := first + i) hb
    refine completeRun_of_ready (s := u) (x := x) hi ⟨hnext, hpl, hrow, hwait, _, ?_, fun g y => createdRow_not_absent, hx⟩
    rw [State.row, hrows]
    exact find_createdRow hi hnone

/-- Settles O22: the checks of ROWSKIP, then its rows completed one after another. -/
theorem rowskipCreatesBlankRows : Obligations.RowskipCreatesBlankRows := by
  intro s tag p h c id first count
  have hc := exec_of_listens (c := c) (act := State.rowskip) h rfl rfl rfl
  refine checked_cons_of_refuse h hc (rowskip_of_length_ne _ _ _) fun hlen => ?_
  have ha := rowskip_of_length (s.idleAssembler .image) .image tag (not_not.1 hlen)
  have hpage : (s.idleAssembler .image).page (wordAt p 0) = s.page id := rfl
  rw [hpage] at ha
  refine checked_cons h hc Iff.rfl ha fun hcount ha => ?_
  refine checked_cons_of_refuse h hc (fun hnone => by rw [ha, hnone]) fun _ q hq => ?_
  have hqid : q.id = id := page_id hq
  rw [hq] at ha
  refine checked_cons h hc Iff.rfl ha fun _ ha => ?_
  refine checked_cons h hc Iff.rfl ha fun _ ha => ?_
  have hintake : (!(s.idleAssembler .image).isIntake id) = true ↔ ¬s.IsIntakeId id := by
    rw [Bool.not_eq_true', ← Bool.not_eq_true]
    exact not_congr isIntake_iff
  refine checked_cons h hc (or_congr_left hintake).symm ha fun _ ha => ?_
  have hfull : 2048 < s.ring.rows.length + count ↔ (s.idleAssembler .image).freeSlots < count := by
    have hfree : (s.idleAssembler .image).freeSlots = 2048 - s.ring.rows.length := rfl
    rw [hfree]
    omega
  refine checked_cons h hc hfull ha fun _ ha => ?_
  have hq : (s.idleAssembler .image).page q.id = some q := hqid ▸ hq
  obtain ⟨hring, ⟨q', hq', heq⟩, hhanded, hsent, hposition, hlists, hlibrary⟩ := skipRows_spec (first := first) (count := count) hq
  have field {α : Type} (get : State → α) (hevent : ∀ f, get (event f s) = get (f s)) :
      get (s.taken .image fun u => u.rowskip .image tag p) =
        get (((s.idleAssembler .image).skipRows q first count).replyFree .image tag) :=
    (hevent _).trans (congrArg get ha)
  refine ⟨_, hc, ?_, ⟨q', ?_, heq⟩, fun i b pl hi hnone hnext hpl hrow hwait hb => ?_, ?_, ?_, ?_, ?_⟩
  · exact (field State.ring fun f => event_ring f s).trans hring
  · rw [← hqid]
    exact (field (·.page q.id) fun f => event_page f s q.id).trans hq'
  · obtain ⟨pl', hpl', hh⟩ := hhanded i b pl hi (hqid ▸ hnone) hnext (hqid ▸ hpl) hrow hwait hb
    exact ⟨pl', (congrArg Bar.next (field (·.bar b) fun f => event_bar f s b)).trans hpl', hh⟩
  · rw [field State.sent fun f => event_sent f s, State.replyFree, reply_sent, hsent, State.freeSlots, hring]
    rfl
  · exact (field State.position fun f => event_position f s).trans hposition
  · exact (field State.lists fun f => event_lists f s).trans hlists
  · exact (field State.library fun f => event_library f s).trans hlibrary

end Sys2Proof.Machine
end

section
/-! An edge of the encoder. -/

namespace Sys2Proof.Machine

theorem edgeKind_aLeading (oldA oldB a b : Bool) : edgeKind oldA oldB a b = .aLeading ↔ IsALeading oldA oldB a b := by
  cases oldA <;> cases oldB <;> cases a <;> cases b <;> simp [IsALeading, edgeKind, pairPlace]

theorem edgeKind_bLeading (oldA oldB a b : Bool) : edgeKind oldA oldB a b = .bLeading ↔ IsBLeading oldA oldB a b := by
  cases oldA <;> cases oldB <;> cases a <;> cases b <;> simp [IsBLeading, IsALeading, edgeKind, pairPlace]

section Edge

variable {p : Position} {a b : Bool}

/-- The Position Unit with the encoder's new levels. -/
def Position.held (p : Position) (a b : Bool) : Position := { p with encA := a, encB := b }

/-- What an edge of a kind makes of the Position Unit under a direction sense (R49). -/
def Position.counted (q : Position) (kind : EdgeKind) (swapped : Bool) : Position :=
  match kind, swapped with
  | .noCount, _ => q
  | .aLeading, false | .bLeading, true => q.forward
  | .aLeading, true | .bLeading, false => q.reverse

theorem edge_eq_counted (p : Position) (a b : Bool) :
    p.edge a b = (p.held a b).counted (edgeKind p.encA p.encB a b) p.swapped := rfl

theorem edge_of_forward (h : IsForward p.swapped p.encA p.encB a b) : p.edge a b = (p.held a b).forward := by
  unfold IsForward at h
  rw [edge_eq_counted]
  cases hs : p.swapped with
  | false =>
    rw [hs, if_neg Bool.false_ne_true, ← edgeKind_aLeading] at h
    rw [h]
    rfl
  | true =>
    rw [hs, if_pos rfl, ← edgeKind_bLeading] at h
    rw [h]
    rfl

theorem edge_of_reverse (h : IsReverse p.swapped p.encA p.encB a b) : p.edge a b = (p.held a b).reverse := by
  unfold IsReverse at h
  rw [edge_eq_counted]
  cases hs : p.swapped with
  | false =>
    rw [hs, if_neg Bool.false_ne_true, ← edgeKind_bLeading] at h
    rw [h]
    rfl
  | true =>
    rw [hs, if_pos rfl, ← edgeKind_aLeading] at h
    rw [h]
    rfl

theorem edge_of_neither (hf : ¬IsForward p.swapped p.encA p.encB a b) (hr : ¬IsReverse p.swapped p.encA p.encB a b) :
    p.edge a b = p.held a b := by
  unfold IsForward at hf
  unfold IsReverse at hr
  rw [edge_eq_counted]
  cases hk : edgeKind p.encA p.encB a b with
  | noCount => rfl
  | aLeading =>
    rw [edgeKind_aLeading] at hk
    cases hs : p.swapped <;> simp_all
  | bLeading =>
    rw [edgeKind_bLeading] at hk
    cases hs : p.swapped <;> simp_all

end Edge

theorem exec_encoderEdge {s : State} (a b : Bool) (hq : s.quiet = true) (ho : s.outputsFollow) :
    exec (.encoderEdge a b) s = .next (s.setPosition (s.position.edge a b)) := by
  have hexec : exec (.encoderEdge a b) s = .next (s.after (·.encoderEdge a b)) := rfl
  rw [hexec, after_of_quiet _ _ hq]
  exact congrArg Host.Outcome.next (event_eq_self _ s (outputsFollow_congr s _ ho rfl rfl fun _ => ⟨rfl, rfl, rfl⟩) rfl)

/-- Settles O26: the three kinds of edge, and the depth a forward or reverse edge finds. -/
theorem encoderEdgeCounts : Obligations.EncoderEdgeCounts := by
  intro s a b hq ho p held goes
  have goes_of {q : Position} (h : p.edge a b = q) : goes q := h ▸ exec_encoderEdge a b hq ho
  refine ⟨fun hf hr => goes_of (edge_of_neither hf hr), fun hf => ⟨fun hd => ?_, fun hd => ?_⟩,
    fun hr => ⟨fun hd => ?_, fun hd => ?_⟩⟩
  · exact goes_of ((edge_of_forward hf).trans (if_pos hd))
  · exact goes_of ((edge_of_forward hf).trans (if_neg hd))
  · exact goes_of ((edge_of_reverse hr).trans (if_neg hd))
  · exact goes_of ((edge_of_reverse hr).trans (if_pos hd))

end Sys2Proof.Machine
end

section
/-! SUPPORT. The end of a check at a bar and the end of a play move bars, checks, links and replies alone (R161, R164,
R166). -/

namespace Sys2Proof.Machine

/-- The part of a play at a row that follows the heads: the line record, and the count of a row unprinted (R161,
R166). -/
def State.countRow (s : State) (b : BarId) (g : GapPlay) (printed : Bool) : State :=
  let s := s.recordLine b g
  if g.source = .check ∧ ¬printed then
    s.modBar b fun x => { x with checkSlot := x.checkSlot.map CheckSlot.countUnprinted }
  else s

/-- The end of a play at a row: the next row, or the play's end (R161). -/
def State.advancePlay (s : State) (b : BarId) (g : GapPlay) : State :=
  if g.next + 1 < s.patternRows g.name then
    s.modBar b fun x => { x with gapPlay := some { g with next := g.next + 1 } }
  else
    let s := s.modBar b fun x => { x with gapPlay := none }
    if g.source = .check then s.endCheck b .whole else s

theorem playPattern_eq (s : State) (b : BarId) (g : GapPlay) :
    s.playPattern b g =
      ((s.tickHeads b g.kind.rowKind none (s.queue.suppress && g.kind == .check) false).countRow b g
        (s.firesFull b (s.queue.suppress && g.kind == .check))).advancePlay b g := rfl

/-- What the end of a play at a bar leaves. -/
structure PlayFrame (b : BarId) (s t : State) : Prop where
  position : t.position = s.position
  queue : t.queue = s.queue
  ring : t.ring = s.ring
  lanes : t.lanes = s.lanes
  lists : t.lists = s.lists
  directory : t.library.directory = s.library.directory
  image : t.link .image = s.link .image
  motion : t.link .motion = s.link .motion
  bars : ∀ c, c ≠ b → t.bar c = s.bar c
  bar : t.bar b = { s.bar b with checkSlot := (t.bar b).checkSlot, gapPlay := (t.bar b).gapPlay }

namespace PlayFrame

variable {s t u : State} {b : BarId}

theorem refl (s : State) (b : BarId) : PlayFrame b s s := ⟨rfl, rfl, rfl, rfl, rfl, rfl, rfl, rfl, fun _ _ => rfl, rfl⟩

theorem trans (h : PlayFrame b s t) (k : PlayFrame b t u) : PlayFrame b s u := by
  refine ⟨k.position.trans h.position, k.queue.trans h.queue, k.ring.trans h.ring, k.lanes.trans h.lanes,
    k.lists.trans h.lists, k.directory.trans h.directory, k.image.trans h.image, k.motion.trans h.motion,
    fun c hc => (k.bars c hc).trans (h.bars c hc), ?_⟩
  have hk := k.bar
  rw [h.bar] at hk
  exact hk

/-- A change of the bar's play, its check slot or both. -/
theorem modBar (s : State) (b : BarId) (f : Bar → Bar)
    (hf : ∀ x, f x = { x with checkSlot := (f x).checkSlot, gapPlay := (f x).gapPlay }) :
    PlayFrame b s (s.modBar b f) := by
  refine ⟨rfl, rfl, rfl, rfl, rfl, rfl, rfl, rfl, fun c hc => modBar_bar_ne s f hc, ?_⟩
  rw [modBar_bar_same]
  exact hf _

theorem setLibrary (s : State) (b : BarId) {x : Library} (h : x.directory = s.library.directory) :
    PlayFrame b s (s.setLibrary x) := ⟨rfl, rfl, rfl, rfl, rfl, h, rfl, rfl, fun _ _ => rfl, rfl⟩

theorem modCheck (s : State) (b c : BarId) (id : Nat) (f : CheckRec → CheckRec) : PlayFrame b s (s.modCheck c id f) :=
  setLibrary s b rfl

theorem checkDone (s : State) (b : BarId) (r : CheckRec) : PlayFrame b s (s.checkDone r) := by
  refine ⟨endWait_position .., endWait_queue .., endWait_ring .., endWait_lanes .., endWait_lists .., ?_, ?_, ?_,
    fun c _ => ?_, ?_⟩
  case refine_1 => exact congrArg Library.directory (endWait_library ..)
  case refine_2 => exact (endWait_link_ne _ _ _ _ (by decide)).trans rfl
  case refine_3 => exact (endWait_link_ne _ _ _ _ (by decide)).trans rfl
  case refine_4 => exact congrArg (PerBar.get · c) (endWait_bars ..)
  case refine_5 =>
    have hbar : (s.checkDone r).bar b = s.bar b := congrArg (PerBar.get · b) (endWait_bars ..)
    rw [hbar]

theorem endCheck (s : State) (b : BarId) (o : CheckOutcome) : PlayFrame b s (s.endCheck b o) := by
  unfold State.endCheck
  split
  · have hslot := modBar s b (fun x => { x with checkSlot := none }) fun _ => rfl
    dsimp only
    split
    · split
      · exact (hslot.trans (modCheck _ b b _ _)).trans (checkDone _ b _)
      · exact hslot.trans (modCheck _ b b _ _)
    · exact hslot
  · exact refl s b

theorem truncatePlay (s : State) (b : BarId) : PlayFrame b s (s.truncatePlay b) := by
  unfold State.truncatePlay
  split
  · exact refl s b
  next g _ =>
    have hended := (setLibrary s b (x := { s.library with
      truncated := satAdd max16 s.library.truncated (s.patternRows g.name - g.next) }) rfl).trans
      (modBar _ b (fun x => { x with gapPlay := none }) fun _ => rfl)
    dsimp only
    split
    · exact hended.trans (endCheck _ b _)
    · exact hended

theorem startCheck (s : State) (b : BarId) (id : Nat) : PlayFrame b s (s.startCheck b id) := by
  unfold State.startCheck
  split
  · exact (modCheck s b b id _).trans (modBar _ b _ fun _ => rfl)
  · exact refl s b

theorem recordLine (s : State) (b : BarId) (g : GapPlay) : PlayFrame b s (s.recordLine b g) := by
  unfold State.recordLine
  split
  · exact modCheck s b b _ _
  · exact refl s b

theorem countRow (s : State) (b : BarId) (g : GapPlay) (printed : Bool) : PlayFrame b s (s.countRow b g printed) := by
  unfold State.countRow
  dsimp only
  split
  · exact (recordLine s b g).trans (modBar _ b _ fun _ => rfl)
  · exact recordLine s b g

theorem advancePlay (s : State) (b : BarId) (g : GapPlay) : PlayFrame b s (s.advancePlay b g) := by
  unfold State.advancePlay
  dsimp only
  split
  · exact modBar s b _ fun _ => rfl
  · split
    · exact (modBar s b _ fun _ => rfl).trans (endCheck _ b _)
    · exact modBar s b _ fun _ => rfl

end PlayFrame

end Sys2Proof.Machine
end

section
/-! SUPPORT. The work of the bars at a tick leaves the Position Unit but its overspeed counter (R52, R61, R86). -/

namespace Sys2Proof.Machine

/-- The Position Unit stands but for its overspeed counter. -/
def SameWeb (s t : State) : Prop := t.position = { s.position with overspeed := t.position.overspeed }

namespace SameWeb

variable {s t u : State}

theorem of_eq (h : t.position = s.position) : SameWeb s t := by rw [SameWeb, h]

theorem refl (s : State) : SameWeb s s := of_eq rfl

theorem trans (h : SameWeb s t) (k : SameWeb t u) : SameWeb s u := by
  rw [SameWeb] at h k ⊢
  rw [h] at k
  exact k

theorem modBar (s : State) (b : BarId) (f : Bar → Bar) : SameWeb s (s.modBar b f) := of_eq rfl

theorem modPage (s : State) (id : Nat) (f : Page → Page) : SameWeb s (s.modPage id f) := of_eq rfl

theorem modLane (s : State) (h : LaneId) (f : Lane → Lane) : SameWeb s (s.modLane h f) := of_eq rfl

theorem foldl {α : Type} {f : State → α → State} (hf : ∀ s x, SameWeb s (f s x)) :
    ∀ (xs : List α) (s : State), SameWeb s (xs.foldl f s)
  | [], s => refl s
  | x :: xs, s => (hf s x).trans (foldl hf xs (f s x))

theorem tickHead (s : State) (kind : RowKind) (limit : Nat) (page : Option Nat) (suppressed waiting : Bool) (h : LaneId) :
    SameWeb s (s.tickHead kind limit page suppressed waiting h) := by
  simp only [State.tickHead]
  cases headOutcome suppressed waiting (s.lane h) <;> cases page <;> rfl

theorem tickHeads (s : State) (b : BarId) (kind : RowKind) (page : Option Nat) (suppressed waiting : Bool) :
    SameWeb s (s.tickHeads b kind page suppressed waiting) := foldl (fun s _ => tickHead s ..) _ s

/-! ### Steps 1 and 2 -/

theorem endTransition (s : State) : SameWeb s s.endTransition := by
  cases h : s.lists.transition with
  | none => exact of_eq (by rw [State.endTransition, h])
  | some x => exact of_eq (endTransition_endsTransition h).position

theorem abortPage (s : State) (id : Nat) (c : AbortCause) : SameWeb s (s.abortPage id c) :=
  of_eq (dropPage_dropsPage (s.markAborted id c) id).position

theorem completePass (s : State) (b : BarId) (id row : Nat) : SameWeb s (s.completePass b id row) := by
  refine of_eq ?_
  unfold State.completePass State.checkDonePage State.lastPass
  dsimp only
  split
  · split
    · split
      · split <;> split <;> rfl
      · split <;> rfl
    · rfl
  · rfl

theorem settleTallies (s : State) (pl : PageLoad) (suppressed : Bool) : SameWeb s (s.settleTallies pl suppressed) := by
  refine of_eq ?_
  unfold State.settleTallies
  split
  · split <;> rfl
  · split <;> rfl

theorem darkPass (s : State) (b : BarId) (id : Nat) : SameWeb s (s.darkPass b id) := by
  refine of_eq ?_
  unfold State.darkPass
  dsimp only
  split <;> rfl

theorem underrun (s : State) (b : BarId) (id row : Nat) : SameWeb s (s.underrun b id row) := by
  unfold State.underrun
  dsimp only
  split
  · exact (of_eq rfl).trans (completePass _ b id row)
  · exact (of_eq rfl).trans (abortPage _ id .underrunHalt)

theorem passPage (s : State) (b : BarId) (id row : Nat) : SameWeb s (s.passPage b id row) := by
  unfold State.passPage
  dsimp only
  have hheads := (tickHeads s b .page (some id) s.queue.suppress (s.loadOf b id row).waiting).trans
    (modBar _ b fun x => { x with next := .idle })
  split
  · exact hheads.trans ((settleTallies _ _ true).trans ((modPage _ id _).trans (completePass _ b id row)))
  · have hdark {u : State} : SameWeb u (if (s.activeLanes b).isEmpty = true then u.darkPass b id else u) := by
      split
      · exact darkPass u b id
      · exact refl u
    split
    · exact hheads.trans (hdark.trans (underrun _ b id row))
    · exact hheads.trans (hdark.trans ((settleTallies _ _ false).trans (completePass _ b id row)))

theorem playPattern (s : State) (b : BarId) (g : GapPlay) : SameWeb s (s.playPattern b g) := by
  rw [playPattern_eq]
  exact (tickHeads s b ..).trans ((of_eq (PlayFrame.countRow _ b g _).position).trans
    (of_eq (PlayFrame.advancePlay _ b g).position))

theorem gapAction (s : State) (b : BarId) : SameWeb s (s.gapAction b) := by
  unfold State.gapAction
  dsimp only
  split
  · exact (playPattern s b _).trans (modBar _ b _)
  · exact (tickHeads s b ..).trans (modBar _ b _)
  · exact (tickHeads s b ..).trans (modBar _ b _)

theorem takeParks (s : State) (b : BarId) (passed : Bool) : SameWeb s (s.takeParks b passed) := by
  refine foldl (fun s h => of_eq ?_) _ s
  unfold State.takePark
  split
  · split <;> rfl
  · rfl

theorem passWork (s : State) (b : BarId) : SameWeb s (s.passWork b) := by
  unfold State.passWork
  dsimp only
  split
  · exact (modBar s b _).trans ((passPage _ b _ _).trans (takeParks _ b true))
  · exact (modBar s b _).trans ((gapAction _ b).trans (takeParks _ b false))

/-! ### Step 3 -/

theorem switchBar (s : State) (b : BarId) (page row : Nat) : SameWeb s (s.switchBar b page row) := by
  unfold State.switchBar
  split
  · split
    · dsimp only
      split
      · exact (of_eq rfl).trans (endTransition _)
      · exact of_eq rfl
    · exact refl s
  · exact refl s

theorem beginHeads (s : State) (b : BarId) (mk : LaneId → HeadLoad) : SameWeb s (s.beginHeads b mk) :=
  foldl (fun s h => modLane s h _) _ s

theorem beginPage (s : State) (b : BarId) (page row : Nat) : SameWeb s (s.beginPage b page row) := by
  have hplay : SameWeb s (s.truncatePlay b) := of_eq (PlayFrame.truncatePlay s b).position
  have hhand (u : State) : SameWeb u (u.handTo page row b) := of_eq (HandFrame.handTo u page row b).position
  exact hplay.trans ((switchBar _ b page row).trans ((modBar _ b _).trans ((beginHeads _ b _).trans (hhand _))))

theorem beginPlain (s : State) (b : BarId) (next : BarNext) (row : LoadRow) (kind : RowKind) (levels : List Level) :
    SameWeb s (s.beginPlain b next row kind levels) := (beginHeads s b _).trans (modBar _ b _)

theorem beginLoads (s : State) (b : BarId) : SameWeb s (s.beginLoads b) := by
  unfold State.beginLoads
  split
  · exact beginPage s b _ _
  · split
    · exact beginPlain s b ..
    · dsimp only
      have hstart {id : Nat} : SameWeb s (s.startCheck b id) := of_eq (PlayFrame.startCheck s b id).position
      split
      · exact hstart.trans (beginPlain _ b ..)
      · exact hstart.trans (beginPlain _ b ..)
    · exact beginPlain s b ..

theorem runTickTask (k : TickTask) (s : State) : SameWeb s (runTickTask k s) := by
  cases k with
  | pass b => exact passWork s b
  | loads b => exact beginLoads s b

end SameWeb

end Sys2Proof.Machine
end

section
/-! A line tick. -/

namespace Sys2Proof.Machine

/-- The automatic pitch's comparison, in words (R57). -/
theorem autoDue_iff (p : Position) : p.autoDue = true ↔ p.source = .auto ∧ p.autoPitch ≠ 0 ∧
    ∃ x, p.lastTrigger = some x ∧ (p.line - x).toNat = p.autoPitch := by
  unfold Position.autoDue
  cases p.lastTrigger <;> simp [and_assoc]

/-- The work of a tick is that of the eight tasks in some order, each bar's pass before its loads. -/
theorem tickWork_order (s : State) : ∃ order : List TickTask,
    order.Perm (barIds.map TickTask.pass ++ barIds.map TickTask.loads) ∧
    (∀ b, [TickTask.pass b, TickTask.loads b].Sublist order) ∧
    runTasks runTickTask 8 tickWork s = order.foldl (fun v k => runTickTask k v.draw) s := by
  obtain ⟨order, hperm, hsub, hrun⟩ := runTasks_order runTickTask 8 tickWork s (by decide)
  have hwork : tickWork.flatten.Perm (barIds.map TickTask.pass ++ barIds.map TickTask.loads) := by decide
  exact ⟨order, hperm.trans hwork, fun b => hsub _ (List.mem_map.2 ⟨b, mem_barIds b, rfl⟩), hrun⟩

theorem exec_lineTick_of_quiet {s : State} (hq : s.quiet = true) : exec .lineTick s = .next s := by
  have h : exec .lineTick s = execLineTick s := rfl
  rw [h, execLineTick, if_neg (by simp [((quiet_iff s).1 hq).1]), settle_of_quiet s hq]

theorem exec_lineTick_of_raised {s : State} (h : s.position.tickRaised = true) :
    exec .lineTick s = .next (event State.lineTick s) := by
  have he : exec .lineTick s = execLineTick s := rfl
  rw [he, execLineTick, if_pos h]

/-- Settles O27: the tasks in an order, and the Position Unit they leave. -/
theorem lineTickDrivesTheBars : Obligations.LineTickDrivesTheBars := by
  refine fun s => ⟨exec_lineTick_of_quiet, fun hraised => ?_⟩
  let started := s.setPosition { s.position with line := s.position.line + 1, tickRaised := false }
  obtain ⟨order, hperm, hsub, hrun⟩ := tickWork_order started
  let u := order.foldl (fun v k => runTickTask k v.draw) started
  have hweb : SameWeb started u := .foldl (fun v k => (SameWeb.of_eq rfl).trans (.runTickTask k v.draw)) order started
  have hlt : s.lineTick = u.setPosition { u.position with autoRaised := u.position.autoDue } := by
    have h : s.lineTick = (runTasks runTickTask 8 tickWork started).setPosition
        { (runTasks runTickTask 8 tickWork started).position with
          autoRaised := (runTasks runTickTask 8 tickWork started).position.autoDue } := rfl
    rw [h, hrun]
  have hposition : (event State.lineTick s).position =
      { u.position with autoRaised := u.position.autoDue } := by
    rw [event_position, hlt]
    rfl
  refine ⟨order, hperm, hsub, u, event State.lineTick s, rfl, exec_lineTick_of_raised hraised, ?_, ?_, ?_⟩
  · refine event_congr (hlt.trans ?_)
    rw [hposition]
  · rw [hposition]
    rw [SameWeb] at hweb
    rw [hweb]
    rfl
  · rw [hposition]
    refine (autoDue_iff u.position).trans ?_
    rw [SameWeb] at hweb
    rw [hweb]
    exact Iff.rfl

end Sys2Proof.Machine
end

section
/-! SUPPORT. Changes of a lane that leave READY's condition; requests held in progress (R43, R175). -/

namespace Sys2Proof.Machine

theorem modLane_id (s : State) (h : LaneId) : s.modLane h id = s :=
  congrArg s.setLanes (PerLane.set_get_self s.lanes h)

/-- A change of the lanes that keeps every assignment, and ACTIVE where it was, leaves READY's condition (R43). -/
theorem readyCondition_setLanes (s : State) (x : PerLane Lane)
    (h : ∀ g, (x.get g).assign = (s.lane g).assign ∧ ((x.get g).head = .active ↔ (s.lane g).head = .active)) :
    (s.setLanes x).readyCondition = s.readyCondition := by
  have hlanes (b : BarId) : (s.setLanes x).activeLanes b = s.activeLanes b := by
    simp only [State.activeLanes, State.lanesOf, List.filter_filter]
    refine List.filter_congr fun g _ => ?_
    obtain ⟨hassign, hactive⟩ := h g
    have hhead : ((x.get g).head == .active) = ((s.lane g).head == .active) := by
      rw [Bool.eq_iff_iff, beq_iff_eq, beq_iff_eq, hactive]
    show ((x.get g).head == .active && (x.get g).onBar b) = _
    rw [hhead, Lane.onBar, Lane.onBar, hassign]
  simp only [State.readyCondition, State.armedPage, hlanes]
  rfl

theorem readyCondition_modLane (s : State) (h : LaneId) (f : Lane → Lane)
    (hassign : (f (s.lane h)).assign = (s.lane h).assign)
    (hactive : (f (s.lane h)).head = .active ↔ (s.lane h).head = .active) :
    (s.modLane h f).readyCondition = s.readyCondition := by
  refine readyCondition_setLanes s _ fun g => ?_
  by_cases hg : g = h
  · subst hg
    rw [PerLane.get_set_same]
    exact ⟨hassign, hactive⟩
  · rw [PerLane.get_set_ne _ _ hg]
    exact ⟨rfl, Iff.rfl⟩

theorem modLane_outputsFollow {s : State} {h : LaneId} {f : Lane → Lane} (ho : s.outputsFollow)
    (hassign : (f (s.lane h)).assign = (s.lane h).assign)
    (hactive : (f (s.lane h)).head = .active ↔ (s.lane h).head = .active) : (s.modLane h f).outputsFollow := by
  obtain ⟨hready, hattn⟩ := ho
  exact ⟨hready.trans (readyCondition_modLane s h f hassign hactive).symm, hattn⟩

theorem keepsOutputs_modLane {s : State} {h : LaneId} {f : Lane → Lane}
    (hassign : (f (s.lane h)).assign = (s.lane h).assign)
    (hactive : (f (s.lane h)).head = .active ↔ (s.lane h).head = .active) : KeepsOutputs s (s.modLane h f) :=
  ⟨rfl, readyCondition_modLane s h f hassign hactive, rfl, rfl⟩

theorem heldOrAnswered_outputsFollow {s : State} (tag : Byte) (wait : Prop) [Decidable wait] (op : WaitOp)
    (ho : s.outputsFollow) : (s.heldOrAnswered tag wait op).outputsFollow := by
  unfold State.heldOrAnswered
  split
  · exact setBusy_outputsFollow .service _ ho
  · exact reply_outputsFollow .service tag .ok [] ho

@[simp] theorem heldOrAnswered_lanes (s : State) (tag : Byte) (wait : Prop) [Decidable wait] (op : WaitOp) :
    (s.heldOrAnswered tag wait op).lanes = s.lanes := by
  unfold State.heldOrAnswered
  split <;> rfl

@[simp] theorem heldOrAnswered_ring (s : State) (tag : Byte) (wait : Prop) [Decidable wait] (op : WaitOp) :
    (s.heldOrAnswered tag wait op).ring = s.ring := by
  unfold State.heldOrAnswered
  split <;> rfl

theorem hold_eq_heldOrAnswered (s : State) (tag : Byte) (wait : Prop) [Decidable wait] (op : WaitOp) :
    s.hold .service tag (decide wait) op = s.heldOrAnswered tag wait op := by
  unfold State.hold State.heldOrAnswered
  by_cases h : wait <;> simp [h]

/-- An act whose outcome has its outputs in step and its slots as they were is the whole of its event. -/
theorem exec_of_act {c : Instr} {s v : State} {l : LinkId} {tag : Byte} {p : List Byte} {act : Act}
    (hc : exec c s = .next (s.taken l fun u => act u l tag p)) (ha : act (s.idleAssembler l) l tag p = v)
    (ho : v.outputsFollow) (hrows : v.ring.rows = s.ring.rows) : exec c s = .next v := by
  have hfree : v.freeSlots = s.freeSlots := by rw [State.freeSlots, State.freeSlots, hrows]
  have he : event (fun u => act (u.idleAssembler l) l tag p) s = act (s.idleAssembler l) l tag p :=
    event_eq_self _ s (ha ▸ ho) (ha ▸ hfree)
  rw [hc, State.taken, he, ha]

/-- A request held or answered after a change of a lane that moves no output. -/
theorem exec_of_held_act {c : Instr} {s : State} {tag : Byte} {p : List Byte} {act : Act} {h : LaneId} {f : Lane → Lane}
    {wait : Prop} [Decidable wait] {op : WaitOp} (hl : s.listens .service tag)
    (hc : exec c s = .next (s.taken .service fun u => act u .service tag p))
    (ha : act (s.idleAssembler .service) .service tag p =
      ((s.idleAssembler .service).modLane h f).heldOrAnswered tag wait op)
    (hassign : (f (s.lane h)).assign = (s.lane h).assign)
    (hactive : (f (s.lane h)).head = .active ↔ (s.lane h).head = .active) :
    exec c s = .next (((s.idleAssembler .service).modLane h f).heldOrAnswered tag wait op) := by
  refine exec_of_act hc ha (heldOrAnswered_outputsFollow tag wait op ?_) (by rw [heldOrAnswered_ring]; rfl)
  exact modLane_outputsFollow (idleAssembler_outputsFollow s .service hl.2) hassign hactive

end Sys2Proof.Machine
end

section
/-! HDON, HDOFF and HDPARK. -/

namespace Sys2Proof.Machine

theorem laneOf_of_number {h : LaneId} {n : Nat} (hn : laneNumber h = n) : laneOf n = some h := by
  rw [← hn, laneOf_laneNumber]

theorem laneOf_of_le {n : Nat} (h : ¬7 < n) : ∃ g, laneOf n = some g := by
  have hn : n ≤ 7 := by omega
  interval_cases n <;> exact ⟨_, rfl⟩

/-- A reply mode in range (R175). -/
theorem replyMode_of_le {b : Byte} (h : ¬1 < b.toNat) : replyMode b = some (decide (b.toNat = 1)) := by
  unfold replyMode
  rcases (show b.toNat = 0 ∨ b.toNat = 1 by omega) with hb | hb <;> simp [hb]

theorem replyMode_of_lt {b : Byte} (h : 1 < b.toNat) : replyMode b = none := by
  unfold replyMode
  rw [if_neg (by omega), if_neg (by omega)]

/-- The warm time that a code in range gives (R73). -/
def namedWarm (old : WarmTime) (n : Nat) : WarmTime :=
  if n = 0 then old else if n = 1 then .ms20 else if n = 2 then .ms40 else if n = 3 then .ms80 else .ms160

theorem warmCode_of_le (old : WarmTime) {n : Nat} (h : ¬4 < n) : warmCode old n = some (namedWarm old n) := by
  have hn : n ≤ 4 := by omega
  interval_cases n <;> rfl

theorem warmCode_of_lt (old : WarmTime) : ∀ {n : Nat}, 4 < n → warmCode old n = none
  | _ + 5, _ => rfl

theorem probe_isSome_iff {ln : Lane} : ln.probe.isSome = true ↔ ln.probe ≠ none := Option.isSome_iff_ne_none

/-! ### HDON (R73, R146) -/

theorem hdon_of_length_ne (s : State) (l : LinkId) (tag : Byte) {p : List Byte} (h : p.length ≠ 3) :
    s.hdon l tag p = s.refuse l tag .badLength := by
  rw [State.hdon]
  rintro _ _ _ rfl
  exact h rfl

theorem hdon_of_outOfRange (s : State) (l : LinkId) (tag : Byte) : ∀ {p : List Byte}, p.length = 3 →
    (7 < byteAt p 0 ∨ 1 < byteAt p 1 ∨ 4 < byteAt p 2) → s.hdon l tag p = s.refuse l tag .badField
  | [lane, mode, warm], _, h => by
    rw [State.hdon]
    rcases h with hlane | hmode | hwarm
    · have hnone : laneOf lane.toNat = none := laneOf_eq_none hlane
      simp only [hnone]
    · have hnone : replyMode mode = none := replyMode_of_lt hmode
      simp only [hnone]
      cases laneOf lane.toNat <;> rfl
    · have hnone (old : WarmTime) : warmCode old warm.toNat = none := warmCode_of_lt old hwarm
      simp only [hnone]
      cases laneOf lane.toNat <;> cases replyMode mode <;> rfl

theorem hdon_of_inRange (s : State) (l : LinkId) (tag : Byte) {h : LaneId} : ∀ {p : List Byte}, p.length = 3 →
    ¬(7 < byteAt p 0 ∨ 1 < byteAt p 1 ∨ 4 < byteAt p 2) → laneNumber h = byteAt p 0 →
    s.hdon l tag p =
      if (s.lane h).assign = none ∨ (s.lane h).probe.isSome then s.refuse l tag .wrongState
      else s.headOn l tag h (decide (byteAt p 1 = 1)) (namedWarm (s.lane h).warmTime (byteAt p 2))
  | [lane, mode, warm], _, hin, hn => by
    obtain ⟨_, hmode, hwarm⟩ : ¬7 < lane.toNat ∧ ¬1 < mode.toNat ∧ ¬4 < warm.toNat := by simpa [not_or] using hin
    have hlane : laneOf lane.toNat = some h := laneOf_of_number hn
    simp only [State.hdon, hlane, replyMode_of_le hmode, warmCode_of_le _ hwarm] <;> rfl

/-- Settles O31: HDON by the state its head is found in. -/
theorem hdonSwitchesAHeadOn : Obligations.HdonSwitchesAHeadOn := by
  intro s tag p hl c wait
  have hc := exec_of_listens (c := c) (act := State.hdon) hl rfl rfl rfl
  refine checked_cons_of_refuse hl hc (hdon_of_length_ne _ _ _) fun hlen => ?_
  refine checked_cons_of_refuse hl hc (hdon_of_outOfRange _ _ _ (not_not.1 hlen)) fun hin h hn => ?_
  intro ln w
  have ha := hdon_of_inRange (s.idleAssembler .service) .service tag (not_not.1 hlen) hin hn
  refine checked_cons hl hc (or_congr_right probe_isSome_iff.symm) ha fun _ ha => ?_
  have hlane : (s.idleAssembler .service).lane h = ln := rfl
  have hw : namedWarm ln.warmTime (byteAt p 2) = w := rfl
  rw [hlane, hw] at ha
  refine checked_cons_of_refuse hl hc (fun hhead => ?_) fun _ => ⟨fun hhead => ?_, fun hhead => ?_, fun hhead => ?_⟩
  · rw [ha, State.headOn, hlane]
    rcases hhead with hhead | ⟨x, hhead⟩ | hhead | hhead <;> rw [hhead]
  · have ha : (s.idleAssembler .service).hdon .service tag p =
        (((s.idleAssembler .service).modLane h fun x =>
          { x with head := .warming, warmTime := w, warmTimer := some w }).hold .service tag (decide wait) (.hdon h)).checkTemperature h := by
      rw [ha, State.headOn, hlane]
      rcases hhead with hhead | hhead <;> rw [hhead]
    rw [hold_eq_heldOrAnswered] at ha
    refine hc.trans (congrArg Host.Outcome.next (event_congr (ha.trans ?_)))
    rw [State.checkTemperature, State.lane, heldOrAnswered_lanes, ← State.lane, modLane_lane_same, hlane]
  · rw [State.headOn, hlane, hhead] at ha
    dsimp only at ha
    rw [hold_eq_heldOrAnswered _ tag wait] at ha
    exact exec_of_held_act hl hc ha rfl Iff.rfl
  · rw [State.headOn, hlane, hhead] at ha
    exact acceptsPlain_of_act hl hc ha (keepsOutputs_modLane rfl Iff.rfl)

/-! ### HDOFF (R75) -/

theorem hdoff_of_length_ne (s : State) (l : LinkId) (tag : Byte) {p : List Byte} (h : p.length ≠ 1) :
    s.hdoff l tag p = s.refuse l tag .badLength := by
  rw [State.hdoff]
  rintro _ rfl
  exact h rfl

theorem hdoff_of_outOfRange (s : State) (l : LinkId) (tag : Byte) : ∀ {p : List Byte}, p.length = 1 →
    7 < byteAt p 0 → s.hdoff l tag p = s.refuse l tag .badField
  | [lane], _, h => by
    have hnone : laneOf lane.toNat = none := laneOf_eq_none h
    simp only [State.hdoff, hnone]

theorem hdoff_of_inRange (s : State) (l : LinkId) (tag : Byte) {h : LaneId} : ∀ {p : List Byte}, p.length = 1 →
    laneNumber h = byteAt p 0 →
    s.hdoff l tag p = if (s.lane h).probe.isSome then s.refuse l tag .wrongState else s.headOff l tag h
  | [lane], _, hn => by
    have hlane : laneOf lane.toNat = some h := laneOf_of_number hn
    simp only [State.hdoff, hlane]

/-- Settles O33: HDOFF by the state its head is found in. -/
theorem hdoffSwitchesAHeadOff : Obligations.HdoffSwitchesAHeadOff := by
  intro s tag p hl c
  have hc := exec_of_listens (c := c) (act := State.hdoff) hl rfl rfl rfl
  refine checked_cons_of_refuse hl hc (hdoff_of_length_ne _ _ _) fun hlen => ?_
  refine checked_cons_of_refuse hl hc (hdoff_of_outOfRange _ _ _ (not_not.1 hlen)) fun _ h hn => ?_
  intro ln becomes
  have ha := hdoff_of_inRange (s.idleAssembler .service) .service tag (not_not.1 hlen) hn
  refine checked_cons hl hc probe_isSome_iff.symm ha fun _ ha => ?_
  have hlane : (s.idleAssembler .service).lane h = ln := rfl
  rw [State.headOff, hlane] at ha
  have plain {f : Lane → Lane} (hf : (s.idleAssembler .service).hdoff .service tag p =
        ((s.idleAssembler .service).modLane h f).reply .service tag .ok [])
      (hassign : (f ln).assign = ln.assign) (hactive : (f ln).head = .active ↔ ln.head = .active) : becomes f :=
    acceptsPlain_of_act hl hc hf (keepsOutputs_modLane hassign hactive)
  refine checked_cons_of_refuse hl hc (fun hhead => ?_) fun _ =>
    ⟨fun hhead => ?_, fun hhead => ?_, fun hhead => ?_, fun hhead => ?_, fun hhead => ?_⟩
  · rcases hhead with hhead | hhead | hhead <;> rw [ha, hhead]
  · refine plain (ha.trans ?_) rfl Iff.rfl
    rw [modLane_id]
    rcases hhead with hhead | hhead <;> rw [hhead]
  · rw [hhead] at ha
    exact plain ha rfl (by simp [hhead])
  · rw [hhead] at ha
    exact accepts_of_act hc ha
  · rw [hhead] at ha
    exact plain ha rfl (by simp [hhead])
  · rw [hhead] at ha
    exact plain ha rfl (by simp [hhead])

/-! ### HDPARK (R76) -/

theorem hdpark_of_length_ne (s : State) (l : LinkId) (tag : Byte) {p : List Byte} (h : p.length ≠ 3) :
    s.hdpark l tag p = s.refuse l tag .badLength := by
  rw [State.hdpark]
  rintro _ _ _ rfl
  exact h rfl

theorem hdpark_of_outOfRange (s : State) (l : LinkId) (tag : Byte) : ∀ {p : List Byte}, p.length = 3 →
    (7 < byteAt p 0 ∨ 1 < byteAt p 1 ∨ 1 < byteAt p 2) → s.hdpark l tag p = s.refuse l tag .badField
  | [lane, mode, now], _, h => by
    rw [State.hdpark]
    rcases h with hlane | hmode | hnow
    · have hnone : laneOf lane.toNat = none := laneOf_eq_none hlane
      simp only [hnone]
    · have hnone : replyMode mode = none := replyMode_of_lt hmode
      simp only [hnone]
      cases laneOf lane.toNat <;> rfl
    · have hnone : replyMode now = none := replyMode_of_lt hnow
      simp only [hnone]
      cases laneOf lane.toNat <;> cases replyMode mode <;> rfl

theorem hdpark_of_inRange (s : State) (l : LinkId) (tag : Byte) {h : LaneId} : ∀ {p : List Byte}, p.length = 3 →
    ¬(7 < byteAt p 0 ∨ 1 < byteAt p 1 ∨ 1 < byteAt p 2) → laneNumber h = byteAt p 0 →
    s.hdpark l tag p =
      if (s.lane h).probe.isSome then s.refuse l tag .wrongState
      else s.headPark l tag h (decide (byteAt p 1 = 1)) (decide (byteAt p 2 = 1))
  | [lane, mode, now], _, hin, hn => by
    obtain ⟨_, hmode, hnow⟩ : ¬7 < lane.toNat ∧ ¬1 < mode.toNat ∧ ¬1 < now.toNat := by simpa [not_or] using hin
    have hlane : laneOf lane.toNat = some h := laneOf_of_number hn
    simp only [State.hdpark, hlane, replyMode_of_le hmode, replyMode_of_le hnow] <;> rfl

/-- Settles O34: HDPARK by the state its head is found in. -/
theorem hdparkAsksForAPark : Obligations.HdparkAsksForAPark := by
  intro s tag p hl c wait
  have hc := exec_of_listens (c := c) (act := State.hdpark) hl rfl rfl rfl
  refine checked_cons_of_refuse hl hc (hdpark_of_length_ne _ _ _) fun hlen => ?_
  refine checked_cons_of_refuse hl hc (hdpark_of_outOfRange _ _ _ (not_not.1 hlen)) fun hin h hn => ?_
  intro ln
  have ha := hdpark_of_inRange (s.idleAssembler .service) .service tag (not_not.1 hlen) hin hn
  refine checked_cons hl hc probe_isSome_iff.symm ha fun _ ha => ?_
  have hlane : (s.idleAssembler .service).lane h = ln := rfl
  rw [State.headPark, hlane] at ha
  refine checked_cons_of_refuse hl hc (fun hhead => ?_) fun _ => ⟨fun hhead => ?_, fun hhead => ?_, fun hhead => ?_⟩
  · obtain ⟨hactive, hsettling, hparked⟩ := hhead
    rw [ha]
    cases hs : ln.head with
    | active => exact absurd hs hactive
    | parked => exact absurd hs hparked
    | settling x =>
      cases x with
      | off => rfl
      | parked => exact absurd hs hsettling
    | absent => rfl
    | off => rfl
    | warming => rfl
    | recovery => rfl
    | failed => rfl
  · rw [hhead] at ha
    dsimp only at ha
    rw [hold_eq_heldOrAnswered _ tag wait] at ha
    exact exec_of_held_act hl hc ha rfl Iff.rfl
  · rw [hhead] at ha
    dsimp only at ha
    rw [hold_eq_heldOrAnswered _ tag wait] at ha
    refine exec_of_act hc ha (heldOrAnswered_outputsFollow tag wait _ ?_) (by rw [heldOrAnswered_ring]; rfl)
    exact idleAssembler_outputsFollow s .service hl.2
  · rw [hhead] at ha
    exact acceptsPlain_of_act (effect := id) hl hc ha (KeepsOutputs.of_eq rfl rfl rfl rfl rfl rfl)

end Sys2Proof.Machine
end

section
/-! A head leaving ACTIVE and a head fault. -/

namespace Sys2Proof.Machine

/-! ### Leaving ACTIVE (R78) -/

/-- Whether an abandoned load counts missed-late for a page (R78). -/
def Page.LosesLoad (q : Page) (load : Option HeadLoad) : Prop :=
  q.state = .printing ∧ ∃ ld r, load = some ld ∧ ld.row = .page q.id r ∧ ld.stage ≠ .waitingRow

theorem countAbandoned_of_loses {q : Page} {load : Option HeadLoad} (h : q.LosesLoad load) :
    q.countAbandoned load = q.countLate := by
  obtain ⟨hstate, ld, r, hload, hrow, hstage⟩ := h
  simp [Page.countAbandoned, HeadLoad.assigned, hload, hrow, hstate, hstage]

theorem countAbandoned_of_keeps {q : Page} {load : Option HeadLoad} (h : ¬q.LosesLoad load) :
    q.countAbandoned load = q := by
  cases load with
  | none => rfl
  | some ld =>
    unfold Page.countAbandoned
    dsimp only
    split
    next id r hrow =>
      refine if_neg fun hcounts => h ?_
      obtain ⟨rfl, hstate, hassigned⟩ := hcounts
      exact ⟨hstate, ld, r, rfl, hrow, by simpa [HeadLoad.assigned] using hassigned⟩
    next => rfl

/-! ### A head fault (R147, R148) -/

theorem faultable_iff {x : HeadState} : x.faultable = true ↔ x = .warming ∨ x = .active := by
  cases x <;> simp [HeadState.faultable]

/-- The lane after a fault (R148). -/
def Lane.faulted (ln : Lane) (f : HeadFault) : Lane :=
  { ln with
    lastFault := some f
    park := none
    warmTimer := none
    head := if ln.retries < 3 then .recovery else .failed
    retries := if ln.retries < 3 then ln.retries + 1 else ln.retries
    retryTimer := decide (ln.retries < 3) }

theorem retry_eq (ln : Lane) : ln.retry =
    { ln with
      head := if ln.retries < 3 then .recovery else .failed
      retries := if ln.retries < 3 then ln.retries + 1 else ln.retries
      retryTimer := decide (ln.retries < 3) } := by
  unfold Lane.retry
  by_cases h : ln.retries < 3 <;> simp [h]

theorem faulted_eq_retry (ln : Lane) (f : HeadFault) :
    ({ ln with lastFault := some f, warmTimer := none, park := none }).retry = ln.faulted f :=
  retry_eq _

/-- The head's part before the fault is recorded: an ACTIVE head leaves ACTIVE (R148 step 1). -/
def State.beforeFault (s : State) (h : LaneId) : State :=
  if (s.lane h).head = .active then s.leaveActive h .active else s

/-- The state in which a fault ends the waits for the head (R148 step 6). -/
def State.inFault (s : State) (h : LaneId) (f : HeadFault) : State :=
  ((s.beforeFault h).modLane h fun ln => ln.faulted f).raiseFault h

theorem headFault_of_not_faultable {s : State} {h : LaneId} (f : HeadFault) (hw : (s.lane h).head ≠ .warming)
    (ha : (s.lane h).head ≠ .active) : s.headFault h f = s := by
  unfold State.headFault
  exact if_neg (by rw [faultable_iff]; simp [hw, ha])

theorem headFault_of_faultable {s : State} {h : LaneId} (f : HeadFault)
    (hh : (s.lane h).head = .warming ∨ (s.lane h).head = .active) :
    s.headFault h f = ((s.inFault h f).endWait (.hdon h) .failed []).endWait (.hdpark h) .failed [] := by
  have hf : (fun ln : Lane => ({ ln with lastFault := some f, warmTimer := none, park := none }).retry) =
      fun ln => ln.faulted f := funext fun ln => faulted_eq_retry ln f
  unfold State.headFault
  rw [if_pos (faultable_iff.2 hh), hf]
  rfl

theorem raiseFault_eq (s : State) (h : LaneId) : s.raiseFault h = s.setLinks (s.raiseFault h).links := by
  unfold State.raiseFault
  dsimp only
  split <;> rfl

/-- The events of a fault (R148 step 5). -/
theorem raiseFault_link (s : State) (h : LaneId) (l : LinkId) :
    (s.raiseFault h).link l =
      if l = .service then
        { s.link .service with
          flags := (s.link .service).flags ||| (if (s.lane h).head = .failed then 0x0003 else 0x0001) }
      else s.link l := by
  have hlane : (s.raise .service .headfault).lane h = s.lane h := rfl
  unfold State.raiseFault
  dsimp only
  rw [hlane]
  by_cases hl : l = .service
  · subst hl
    by_cases hf : (s.lane h).head = .failed
    · simp only [hf, if_true, raise_link, flagBit, BitVec.or_assoc]
      rfl
    · simp only [hf, if_true, if_false, raise_link, flagBit]
  · by_cases hf : (s.lane h).head = .failed
    · simp only [hf, hl, if_true, if_false, raise_link]
    · simp only [hf, hl, if_false, raise_link]

theorem PerLane.set_set (x : PerLane α) (h : LaneId) (v w : α) : (x.set h v).set h w = x.set h w := by
  cases h <;> rfl

theorem beforeFault_eq (s : State) (h : LaneId) (f : Lane → Lane) :
    (s.beforeFault h).modLane h f =
      (s.setPages (s.beforeFault h).queue.pages).setLanes (s.lanes.set h (f ((s.beforeFault h).lane h))) := by
  unfold State.beforeFault
  split
  · exact congrArg (s.setPages _).setLanes (PerLane.set_set _ _ _ _)
  · rfl

/-- What a fault changes but for the waits it ends (R148). -/
theorem inFault_eq (s : State) (h : LaneId) (f : HeadFault) :
    s.inFault h f =
      ((s.setPages (s.beforeFault h).queue.pages).setLanes
        (s.lanes.set h (((s.beforeFault h).lane h).faulted f))).setLinks (s.inFault h f).links := by
  unfold State.inFault
  rw [raiseFault_eq, beforeFault_eq]
  rfl

theorem beforeFault_lane_retries (s : State) (h : LaneId) :
    ((s.beforeFault h).lane h).retries = (s.lane h).retries := by
  unfold State.beforeFault
  split
  · simp only [State.leaveActive, Lane.leaveActive, modLane_lane_same]
    rfl
  · rfl

theorem inFault_link (s : State) (h : LaneId) (f : HeadFault) (l : LinkId) :
    (s.inFault h f).link l =
      if l = .service then
        { s.link .service with
          flags := (s.link .service).flags ||| (if (s.lane h).retries < 3 then 0x0001 else 0x0003) }
      else s.link l := by
  have hlink (m : LinkId) : ((s.beforeFault h).modLane h fun ln => ln.faulted f).link m = s.link m := by
    rw [beforeFault_eq]
    rfl
  have hhead : (((s.beforeFault h).modLane h fun ln => ln.faulted f).lane h).head = .failed ↔
      ¬(s.lane h).retries < 3 := by
    rw [modLane_lane_same, Lane.faulted, beforeFault_lane_retries]
    by_cases hr : (s.lane h).retries < 3 <;> simp [hr]
  rw [State.inFault, raiseFault_link, hlink, hlink, if_congr hhead rfl rfl, ite_not]

theorem beforeFault_queue (s : State) (h : LaneId) :
    (s.beforeFault h).queue = { s.queue with pages := (s.beforeFault h).queue.pages } := by
  unfold State.beforeFault
  split <;> rfl

/-- A wait that ends has its reply, and leaves nothing in progress (R175). -/
theorem endWait_ends {s : State} {tag : Byte} {op : WaitOp} (st : Status) (p : List Byte)
    (h : (s.link .service).busy = some (.waiting tag op)) :
    (s.endWait op st p).sent = s.sent ++ [.reply .service tag st p] ∧
      ((s.endWait op st p).link .service).busy = none := by
  rw [endWait_of_waiting st p h]
  exact ⟨rfl, rfl⟩

/-- Settles O32: R78's head leaving ACTIVE, and R147 and R148's fault. -/
theorem headsLeaveActiveAndFault : Obligations.HeadsLeaveActiveAndFault := by
  refine ⟨fun s h dest => ⟨rfl, _, rfl, fun q => ⟨countAbandoned_of_loses, countAbandoned_of_keeps⟩⟩, ?_⟩
  intro s h f ln t
  refine ⟨headFault_of_not_faultable f, fun hh => ?_⟩
  intro out
  have ht : t = ((s.inFault h f).endWait (.hdon h) .failed []).endWait (.hdpark h) .failed [] :=
    headFault_of_faultable f hh
  have hin := inFault_eq s h f
  have hservice := inFault_link s h f .service
  rw [if_pos rfl] at hservice
  have hbusy : ((s.inFault h f).link .service).busy = (s.link .service).busy := (congrArg Link.busy hservice).trans rfl
  have hsent : (s.inFault h f).sent = s.sent := (congrArg State.sent hin).trans rfl
  have hlink {l : LinkId} (hl : l ≠ .service) : t.link l = s.link l := by
    rw [ht, endWait_link_ne _ _ _ _ hl, endWait_link_ne _ _ _ _ hl, inFault_link, if_neg hl]
  have hretries : (out.lane h).retries = ln.retries := beforeFault_lane_retries s h
  refine ⟨?_, ?_, ?_, ?_, ?_, hlink (by decide), hlink (by decide), ?_, ?_, ?_, ?_, ?_⟩
  · rw [ht, endWait_queue, endWait_queue, hin]
    exact (beforeFault_queue s h).symm
  · rw [ht, endWait_lanes, endWait_lanes, hin]
    show s.lanes.set h ((out.lane h).faulted f) = _
    rw [Lane.faulted, hretries]
  · rw [ht, endWait_link, endWait_link, hservice]
  · rintro tag op hop (rfl | rfl)
    · obtain ⟨hs, hb⟩ := endWait_ends .failed [] (hbusy.trans hop)
      rw [ht, endWait_of_not_waiting (s := (s.inFault h f).endWait (.hdon h) .failed []) _ _ (by simp [hb]), hs, hsent]
      exact ⟨rfl, hb⟩
    · rw [ht, endWait_of_not_waiting (s := s.inFault h f) _ _ (by simp [hbusy, hop]), ← hsent]
      exact endWait_ends .failed [] (hbusy.trans hop)
  · intro hop
    rw [ht, endWait_of_not_waiting (s := s.inFault h f) _ _ fun tag => hbusy.trans_ne (hop tag).1,
      endWait_of_not_waiting _ _ fun tag => hbusy.trans_ne (hop tag).2]
    exact ⟨hsent, hbusy⟩
  all_goals
    simp only [ht, endWait_ring, endWait_bars, endWait_lists, endWait_library, endWait_position]
    rw [hin]
    rfl

end Sys2Proof.Machine
end

section
/-! LANESCAN and the probes it begins. -/

namespace Sys2Proof.Machine

/-! ### The beginning of a probe (R70, R71, R149) -/

/-- A lane in which a probe has begun: its identify is in progress, unless another exchange is. -/
def Lane.probing (ln : Lane) (p : Probe) : Lane :=
  { ln with
    probe := some p
    exchange := some (ln.exchange.getD .identify)
    identifies := if ln.exchange = none then ln.identifies + 1 else ln.identifies }

theorem beginProbe_of_idle {s : State} {h : LaneId} (p : Probe) (hex : (s.lane h).exchange = none) :
    s.beginProbe h p = (s.modLane h (·.probing p)).send (.head h .identify) := by
  have hprobing : ({ s.lane h with probe := some p } : Lane).identify = (s.lane h).probing p := by
    simp [Lane.identify, Lane.probing, hex]
  have hone : (s.modLane h fun ln => { ln with probe := some p }).lane h = { s.lane h with probe := some p } :=
    modLane_lane_same s h _
  unfold State.beginProbe State.sendIdentify
  rw [if_pos (by simp [hone, hex])]
  refine congrArg (State.send · _) ?_
  refine congrArg s.setLanes ?_
  rw [hone, hprobing]
  exact PerLane.set_set _ _ _ _

theorem beginProbe_of_busy {s : State} {h : LaneId} (p : Probe) (hex : (s.lane h).exchange ≠ none) :
    s.beginProbe h p = s.modLane h (·.probing p) := by
  obtain ⟨x, hx⟩ := Option.ne_none_iff_exists'.1 hex
  have hprobing : ({ s.lane h with probe := some p } : Lane) = (s.lane h).probing p := by
    simp only [Lane.probing, hx, reduceCtorEq, if_false]
    rw [Option.getD_some, ← hx]
  have hone : (s.modLane h fun ln => { ln with probe := some p }).lane h = { s.lane h with probe := some p } :=
    modLane_lane_same s h _
  unfold State.beginProbe State.sendIdentify
  rw [if_neg (by simp [hone, hx])]
  exact congrArg s.setLanes (congrArg (s.lanes.set h) hprobing)

/-- The lanes of a list in which probes have begun. -/
def State.probing (s : State) (p : Probe) (hs : List LaneId) : PerLane Lane :=
  .ofFn fun g => if g ∈ hs then (s.lane g).probing p else s.lane g

theorem probing_cons (s : State) (p : Probe) {h : LaneId} {hs : List LaneId} (hh : h ∉ hs) :
    (s.modLane h (·.probing p)).probing p hs = s.probing p (h :: hs) := by
  refine PerLane.ext_get _ _ fun g => ?_
  simp only [State.probing, PerLane.get_ofFn, List.mem_cons]
  by_cases hg : g = h
  · subst hg
    rw [modLane_lane_same, if_neg hh, if_pos (Or.inl rfl)]
  · rw [modLane_lane_ne s _ hg]
    exact if_congr (by simp [hg]) rfl rfl

/-- Probes begun on the lanes of a list: their identifies go out in its order. -/
theorem foldl_beginProbe (p : Probe) (hs : List LaneId) (hn : hs.Nodup) (s : State) :
    hs.foldl (fun u h => u.beginProbe h p) s =
      (s.setLanes (s.probing p hs)).setSent
        (s.sent ++ (hs.filter fun h => (s.lane h).exchange.isNone).map fun h => Sent.head h .identify) := by
  induction hs generalizing s with
  | nil =>
    have hsame : s.probing p [] = s.lanes := PerLane.ext_get _ _ fun g => by
      simp only [State.probing, PerLane.get_ofFn, List.not_mem_nil, if_false]
      rfl
    rw [hsame]
    simp only [List.foldl_nil, List.filter_nil, List.map_nil, List.append_nil]
    rfl
  | cons h hs ih =>
    obtain ⟨hh, hrest⟩ := List.nodup_cons.1 hn
    have hfilter : (hs.filter fun g => ((s.modLane h (·.probing p)).lane g).exchange.isNone) =
        hs.filter fun g => (s.lane g).exchange.isNone :=
      List.filter_congr fun g hg => by rw [modLane_lane_ne s _ (ne_of_mem_of_not_mem hg hh)]
    rw [List.foldl_cons]
    by_cases hex : (s.lane h).exchange = none
    · rw [beginProbe_of_idle p hex, ih hrest, List.filter_cons_of_pos (by simp [hex])]
      have hlanes : ((s.modLane h (·.probing p)).send (.head h .identify)).probing p hs = s.probing p (h :: hs) :=
        probing_cons s p hh
      have hlane (g : LaneId) : ((s.modLane h (·.probing p)).send (.head h .identify)).lane g =
          (s.modLane h (·.probing p)).lane g := rfl
      simp only [hlanes, hlane, hfilter, List.map_cons]
      show _ = (s.setLanes _).setSent _
      rw [List.append_cons]
      rfl
    · rw [beginProbe_of_busy p hex, ih hrest, List.filter_cons_of_neg (by simp [hex]), probing_cons s p hh, hfilter]
      rfl

/-! ### LANESCAN (R72) -/

theorem laneSetOf_get (x : Byte) (h : LaneId) : (laneSetOf x).get h = x.toNat.testBit (laneNumber h) :=
  PerLane.get_ofFn _ _

theorem refusesScan_iff {x : HeadState} : x.refusesScan = true ↔ x.IsBusy ∨ x = .failed := by
  cases x <;> simp [HeadState.refusesScan, HeadState.IsBusy]

theorem lanescan_of_length_ne (s : State) (l : LinkId) (tag : Byte) {p : List Byte} (h : p.length ≠ 1) :
    s.lanescan l tag p = s.refuse l tag .badLength := by
  rw [State.lanescan]
  rintro _ rfl
  exact h rfl

/-- Whether a scan names a lane that cannot be probed (R72). -/
def State.ScanBlocked (s : State) (named : LaneId → Bool) : Prop :=
  ∃ h, named h = true ∧ ((s.lane h).probe ≠ none ∨ (s.lane h).head.IsBusy ∨ (s.lane h).head = .failed)

theorem scanBlocked_iff {s : State} {named : LaneId → Bool} :
    s.ScanBlocked named ↔
      (laneIds.any fun h => named h && ((s.lane h).probe.isSome || (s.lane h).head.refusesScan)) = true := by
  simp [State.ScanBlocked, mem_laneIds, refusesScan_iff, Option.isSome_iff_ne_none]

theorem lanescan_of_length (s : State) (l : LinkId) (tag : Byte) : ∀ {p : List Byte}, p.length = 1 →
    s.lanescan l tag p =
      if byteAt p 0 = 0 then s.refuse l tag .badField
      else if (laneIds.any fun h => (byteAt p 0).testBit (laneNumber h) &&
          ((s.lane h).probe.isSome || (s.lane h).head.refusesScan)) = true then s.refuse l tag .wrongState
      else
        ((laneIds.filter fun h => (byteAt p 0).testBit (laneNumber h)).foldl
          (fun u h => u.beginProbe h (.plain true)) s).setBusy l
          (some (.scan tag (.ofFn fun h => (byteAt p 0).testBit (laneNumber h)) (.all false)))
  | [set], _ => by
    have hnamed : (laneSetOf set).get = fun h => set.toNat.testBit (laneNumber h) := funext (laneSetOf_get set)
    simp only [State.lanescan, hnamed]
    rfl

/-- Settles O35: LANESCAN, its checks and the probes it begins. -/
theorem lanescanProbesTheNamedLanes : Obligations.LanescanProbesTheNamedLanes := by
  intro s tag p hl c named
  have hc := exec_of_listens (c := c) (act := State.lanescan) hl rfl rfl rfl
  refine checked_cons_of_refuse hl hc (lanescan_of_length_ne _ _ _) fun hlen => ?_
  have ha := lanescan_of_length (s.idleAssembler .service) .service tag (not_not.1 hlen)
  refine checked_cons hl hc Iff.rfl ha fun _ ha => ?_
  refine checked_cons hl hc (scanBlocked_iff (s := s.idleAssembler .service) (named := named)) ha fun _ ha => ?_
  rw [foldl_beginProbe _ _ (List.Nodup.filter _ (by decide)), List.filter_filter] at ha
  have hlanes : (s.idleAssembler .service).probing (.plain true) (laneIds.filter named) =
      .ofFn fun h => if named h then (s.lane h).probing (.plain true) else s.lane h := by
    refine PerLane.ext_get _ _ fun g => ?_
    simp only [State.probing, PerLane.get_ofFn, List.mem_filter, mem_laneIds, true_and]
    rfl
  have hfilter : (laneIds.filter fun h => ((s.idleAssembler .service).lane h).exchange.isNone && named h) =
      laneIds.filter fun h => named h && (s.lane h).exchange.isNone :=
    List.filter_congr fun h _ => Bool.and_comm _ _
  refine exec_of_act hc (ha.trans ?_) ?_ rfl
  · exact congrArg₂ (fun x m => (((s.idleAssembler .service).setLanes x).setSent (s.sent ++ List.map _ m)).setBusy
      .service _) hlanes hfilter
  · have hready := readyCondition_setLanes (s.idleAssembler .service)
      (.ofFn fun h => if named h then (s.lane h).probing (.plain true) else s.lane h) fun g => by
        rw [PerLane.get_ofFn]
        split <;> exact ⟨rfl, Iff.rfl⟩
    obtain ⟨ho, hattn⟩ := idleAssembler_outputsFollow s .service hl.2
    exact setBusy_outputsFollow .service _ ⟨ho.trans hready.symm, hattn⟩

end Sys2Proof.Machine
end

section
/-! DRVSET. -/

namespace Sys2Proof.Machine

/-- A slew step that a code in range gives (R141). -/
theorem stepCode_of_le {n : Nat} (h : ¬6 < n) : stepCode n = some (if n = 0 then 0 else 2 ^ (n - 1)) := by
  have hn : n ≤ 6 := by omega
  interval_cases n <;> rfl

theorem stepCode_of_lt : ∀ {n : Nat}, 6 < n → stepCode n = none
  | _ + 7, _ => rfl

/-- The slew interval that a code in range gives (R141). -/
def namedInterval (n : Nat) : SlewInterval :=
  if n = 0 then .half else if n = 1 then .ms1 else if n = 2 then .ms2 else if n = 3 then .ms4 else .ms8

theorem intervalCode_of_le {n : Nat} (h : ¬4 < n) : intervalCode n = some (namedInterval n) := by
  have hn : n ≤ 4 := by omega
  interval_cases n <;> rfl

theorem intervalCode_of_lt : ∀ {n : Nat}, 4 < n → intervalCode n = none
  | _ + 5, _ => rfl

/-- The lane after DRVSET, by whether its head is ACTIVE, a ramp runs, and what changes (R143). -/
def Lane.driven (ln : Lane) (target step : Nat) (iv : SlewInterval) (limit : Nat) : Lane :=
  let new := { ln with target := target, step := step, interval := iv, limit := limit }
  if ln.head ≠ .active then new
  else if ln.slewTimer ≠ none ∧ step = 0 then { new with target := ln.drive, slewTimer := none }
  else if ln.slewTimer ≠ none ∧ target = ln.drive then { new with slewTimer := none }
  else if ln.slewTimer ≠ none ∧ iv = ln.interval then new
  else if ln.slewTimer ≠ none then { new with slewTimer := some iv }
  else if step = 0 then { new with drive := target }
  else { new with slewTimer := if ln.drive = target then none else some iv }

theorem setDrive_eq_driven (ln : Lane) (target step : Nat) (iv : SlewInterval) (limit : Nat) :
    ln.setDrive target step iv limit = ln.driven target step iv limit := by
  unfold Lane.setDrive Lane.driven
  by_cases hactive : ln.head = .active
  · rw [if_pos hactive, if_neg (not_not.2 hactive)]
    unfold Lane.driveActive
    cases hslew : ln.slewTimer with
    | none =>
      by_cases hstep : step = 0
      · simp [hstep]
      · by_cases hd : ln.drive = target <;> simp [hstep, hd, Lane.startRamp]
    | some x =>
      by_cases hstep : step = 0
      · simp [hstep]
      · by_cases hd : target = ln.drive
        · simp [hstep, hd]
        · by_cases hiv : iv = ln.interval <;> simp [hstep, hd, hiv]
  · rw [if_neg hactive, if_pos hactive]

theorem driven_keeps (ln : Lane) (target step : Nat) (iv : SlewInterval) (limit : Nat) :
    (ln.driven target step iv limit).head = ln.head ∧ (ln.driven target step iv limit).limit = limit ∧
      (ln.driven target step iv limit).temperature = ln.temperature := by
  unfold Lane.driven
  dsimp only
  repeat' split
  all_goals exact ⟨rfl, rfl, rfl⟩

/-- The check of a temperature faults a head that takes faults, at its limit (R146, R147). -/
theorem checkTemperature_of_cool {s : State} {h : LaneId}
    (hf : ¬(((s.lane h).head = .warming ∨ (s.lane h).head = .active) ∧ (s.lane h).limit ≤ (s.lane h).temperature)) :
    s.checkTemperature h = s := by
  unfold State.checkTemperature
  split
  next hhot =>
    obtain ⟨hw, ha⟩ := not_or.1 fun hh => hf ⟨hh, hhot⟩
    exact headFault_of_not_faultable .overtemp hw ha
  next => rfl

theorem drvset_of_length_ne (s : State) (l : LinkId) (tag : Byte) {p : List Byte} (h : p.length ≠ 5) :
    s.drvset l tag p = s.refuse l tag .badLength := by
  rw [State.drvset]
  rintro _ _ _ _ _ rfl
  exact h rfl

theorem drvset_of_outOfRange (s : State) (l : LinkId) (tag : Byte) : ∀ {p : List Byte}, p.length = 5 →
    (7 < byteAt p 0 ∨ 6 < byteAt p 2 ∨ 4 < byteAt p 3 ∨ byteAt p 4 < 40 ∨ 100 < byteAt p 4) →
    s.drvset l tag p = s.refuse l tag .badField
  | [lane, target, step, interval, limit], _, h => by
    rw [State.drvset]
    rcases h with hlane | hstep | hiv | hlimit
    · have hnone : laneOf lane.toNat = none := laneOf_eq_none hlane
      simp only [hnone]
    · have hnone : stepCode step.toNat = none := stepCode_of_lt hstep
      simp only [hnone]
      cases laneOf lane.toNat <;> rfl
    · have hnone : intervalCode interval.toNat = none := intervalCode_of_lt hiv
      simp only [hnone]
      cases laneOf lane.toNat <;> cases stepCode step.toNat <;> rfl
    · cases laneOf lane.toNat with
      | none => rfl
      | some h =>
        cases stepCode step.toNat with
        | none => rfl
        | some st =>
          cases intervalCode interval.toNat with
          | none => rfl
          | some iv => exact if_pos hlimit

theorem drvset_of_inRange (s : State) (l : LinkId) (tag : Byte) {h : LaneId} {ln : Lane} (hln : s.lane h = ln) :
    ∀ {p : List Byte}, p.length = 5 →
    ¬(7 < byteAt p 0 ∨ 6 < byteAt p 2 ∨ 4 < byteAt p 3 ∨ byteAt p 4 < 40 ∨ 100 < byteAt p 4) →
    laneNumber h = byteAt p 0 →
    s.drvset l tag p =
      (let u := (s.modLane h fun _ => ln.driven (byteAt p 1)
          (if byteAt p 2 = 0 then 0 else 2 ^ (byteAt p 2 - 1)) (namedInterval (byteAt p 3)) (byteAt p 4)).checkTemperature h
      u.reply l tag .ok [be8 (u.lane h).drive, be8 (u.lane h).target])
  | [lane, target, step, interval, limit], _, hin, hn => by
    obtain ⟨_, hstep, hiv, hlow, hhigh⟩ :
        ¬7 < lane.toNat ∧ ¬6 < step.toNat ∧ ¬4 < interval.toNat ∧ ¬limit.toNat < 40 ∧ ¬100 < limit.toNat := by
      simpa [not_or] using hin
    have hlane : laneOf lane.toNat = some h := laneOf_of_number hn
    simp only [State.drvset, hlane, stepCode_of_le hstep, intervalCode_of_le hiv]
    rw [if_neg (not_or.2 ⟨hlow, hhigh⟩), State.modLane, setDrive_eq_driven, hln]
    rfl

/-- Settles O36: DRVSET and what it leaves of level, ramp and temperature. -/
theorem drvsetSetsTheDrive : Obligations.DrvsetSetsTheDrive := by
  intro s tag p hl c target limit
  have hc := exec_of_listens (c := c) (act := State.drvset) hl rfl rfl rfl
  refine checked_cons_of_refuse hl hc (drvset_of_length_ne _ _ _) fun hlen => ?_
  refine checked_cons_of_refuse hl hc (drvset_of_outOfRange _ _ _ (not_not.1 hlen)) fun hin h hn => ?_
  intro ln step iv new after faults
  have ha := drvset_of_inRange (s.idleAssembler .service) .service tag (ln := ln) rfl (not_not.1 hlen) hin hn
  have hafter : ln.driven target step iv limit = after := rfl
  have hiv : namedInterval (byteAt p 3) = iv := rfl
  obtain ⟨hhead, hlimit, htemp⟩ : after.head = ln.head ∧ after.limit = limit ∧ after.temperature = ln.temperature :=
    driven_keeps ln target step iv limit
  rw [hiv, hafter] at ha
  have hlane : ((s.idleAssembler .service).modLane h fun _ => after).lane h = after := modLane_lane_same _ h _
  refine ⟨fun hf => ?_, fun hf => ?_⟩
  · rw [checkTemperature_of_cool (by rw [hlane, hhead, hlimit, htemp]; exact hf)] at ha
    dsimp only at ha
    rw [hlane] at ha
    exact accepts_of_act hc ha
  · refine hc.trans (congrArg Host.Outcome.next (event_congr (ha.trans ?_)))
    obtain ⟨_, hhot⟩ := hf
    rw [State.checkTemperature, if_pos (by rw [hlane, hlimit, htemp]; exact hhot)]

end Sys2Proof.Machine
end

section
/-! The warm, settle, retry and slew timers. -/

namespace Sys2Proof.Machine

/-! ### Events in a quiet state -/

theorem effects_of_quiet {c : Instr} {s : State} {f g : State → State} (hc : exec c s = .next (s.after f))
    (hq : s.quiet = true) (ha : f s = g s) : Effects c s g :=
  hc.trans (congrArg Host.Outcome.next ((after_of_quiet f s hq).trans (event_congr ha)))

/-- An event whose outcome has its outputs in step and its slots as they were is its effect alone. -/
theorem exec_of_effect {c : Instr} {s v : State} {f : State → State} (hc : exec c s = .next (s.after f))
    (hq : s.quiet = true) (ha : f s = v) (ho : v.outputsFollow) (hrows : v.ring.rows = s.ring.rows) :
    exec c s = .next v := by
  have hfree : v.freeSlots = s.freeSlots := by rw [State.freeSlots, State.freeSlots, hrows]
  rw [hc, after_of_quiet f s hq, event_eq_self f s (ha ▸ ho) (ha ▸ hfree), ha]

theorem exec_of_no_effect {c : Instr} {s : State} {f : State → State} (hc : exec c s = .next (s.after f))
    (hq : s.quiet = true) (ha : f s = s) (ho : s.outputsFollow) : exec c s = .next s :=
  exec_of_effect hc hq ha ho rfl

theorem modLane_modLane (s : State) (h : LaneId) (f g : Lane → Lane) :
    (s.modLane h f).modLane h g = s.modLane h fun x => g (f x) := by
  have hlane : (s.modLane h f).lane h = f (s.lane h) := modLane_lane_same s h f
  rw [State.modLane, hlane]
  exact congrArg s.setLanes (PerLane.set_set _ _ _ _)

/-! ### The timers -/

theorem not_and_isSome_iff {α : Type} {a : Prop} {x : Option α} : (¬a ∨ x = none) ↔ ¬(a ∧ x.isSome) := by
  cases x <;> simp

/-- A lane that enters ACTIVE, its level at its target at once or at the foot of a ramp (R74, R144). -/
theorem enterActive_eq (x : Lane) : x.enterActive =
    { x with
      head := .active, warmTimer := none, fire := none, fireOpen := false, load := none
      noReply := 0, check := 0
      nozzles := x.nozzles.map fun z => { z with idle := 0 }
      drive := if x.step = 0 then x.target else 0
      slewTimer := if x.step = 0 ∨ x.target = 0 then none else some x.interval } := by
  have hwet : (fun z : Nozzle => { z with idle := 0 }) = Nozzle.wet := rfl
  rw [Lane.enterActive, Lane.enterDrive, hwet]
  by_cases hstep : x.step = 0
  · simp only [hstep, if_true, true_or]
  · by_cases htarget : x.target = 0
    · simp [hstep, htarget, Lane.startRamp]
    · simp [hstep, htarget, Lane.startRamp, Ne.symm htarget]

theorem slew_eq (x : Lane) : x.slew =
    (let d := if x.drive < x.target then x.drive + min x.step (x.target - x.drive)
      else x.drive - min x.step (x.drive - x.target)
    { x with drive := d, slewTimer := if x.step = 0 ∨ d = x.target then none else some x.interval }) := by
  have hramp (y : Lane) : y.startRamp =
      { y with slewTimer := if y.step = 0 ∨ y.drive = y.target then none else some y.interval } := by
    rw [Lane.startRamp]
    by_cases hstep : y.step = 0 <;> by_cases hd : y.drive = y.target <;> simp [hstep, hd]
  exact hramp _

theorem settleExpiry_of_idle {s : State} {h : LaneId}
    (hidle : (∀ x, (s.lane h).head ≠ .settling x) ∨ (s.lane h).settleTimer = none) : s.settleExpiry h = s := by
  unfold State.settleExpiry
  split
  next hhead htimer => exact (hidle.elim (· _ hhead) fun hnone => by simp [hnone] at htimer).elim
  next hhead htimer => exact (hidle.elim (· _ hhead) fun hnone => by simp [hnone] at htimer).elim
  next => rfl

/-- A lane whose retry timer has expired (R149). -/
def Lane.retrying (x : Lane) : Lane :=
  { x with
    retryTimer := false, probe := some .retry, exchange := some (x.exchange.getD .identify)
    identifies := if x.exchange = none then x.identifies + 1 else x.identifies }

theorem retryExpiry_eq {s : State} {h : LaneId} (hhead : (s.lane h).head = .recovery)
    (ht : (s.lane h).retryTimer = true) :
    s.retryExpiry h = if (s.lane h).exchange = none then (s.modLane h Lane.retrying).send (.head h .identify)
      else s.modLane h Lane.retrying := by
  have hlane : ((s.modLane h fun x => { x with retryTimer := false }).lane h).exchange = (s.lane h).exchange :=
    (congrArg Lane.exchange (modLane_lane_same s h fun x => { x with retryTimer := false })).trans rfl
  have hprobe : (s.modLane h fun x => { x with retryTimer := false }).modLane h (·.probing .retry) =
      s.modLane h Lane.retrying := modLane_modLane s h _ _
  rw [State.retryExpiry, if_pos ⟨hhead, ht⟩]
  by_cases hex : (s.lane h).exchange = none
  · rw [if_pos hex, beginProbe_of_idle _ (hlane.trans hex), hprobe]
  · rw [if_neg hex, beginProbe_of_busy _ (hlane.trans_ne hex), hprobe]

/-- Settles O38: the expiry of each timer of a lane. -/
theorem timersExpire : Obligations.TimersExpire := by
  intro s h hq ho ln
  refine ⟨fun hhead ht => ?_, fun hidle => ?_, fun hhead ht => ?_, fun hhead ht => ?_, fun hidle => ?_,
    fun hhead ht => ?_, fun hidle => ?_, fun hhead ht => ?_, fun hidle => ?_⟩
  · refine effects_of_quiet (f := (·.warmExpiry h)) rfl hq ?_
    rw [State.warmExpiry, if_pos ⟨hhead, Option.isSome_iff_ne_none.2 ht⟩, funext enterActive_eq]
  · exact exec_of_no_effect (f := (·.warmExpiry h)) rfl hq (if_neg (not_and_isSome_iff.1 hidle)) ho
  · obtain ⟨w, hw⟩ := Option.ne_none_iff_exists'.1 ht
    refine exec_of_effect (f := (·.settleExpiry h)) rfl hq ?_
      (modLane_outputsFollow ho rfl (by simp [show (s.lane h).head = _ from hhead])) rfl
    rw [State.settleExpiry, show (s.lane h).head = _ from hhead, show (s.lane h).settleTimer = _ from hw]
  · obtain ⟨w, hw⟩ := Option.ne_none_iff_exists'.1 ht
    refine effects_of_quiet (f := (·.settleExpiry h)) rfl hq ?_
    rw [State.settleExpiry, show (s.lane h).head = _ from hhead, show (s.lane h).settleTimer = _ from hw]
  · exact exec_of_no_effect (f := (·.settleExpiry h)) rfl hq (settleExpiry_of_idle hidle) ho
  · have hretrying : (s.modLane h Lane.retrying).outputsFollow := modLane_outputsFollow ho rfl Iff.rfl
    refine exec_of_effect (f := (·.retryExpiry h)) rfl hq (retryExpiry_eq hhead ht) ?_ ?_
    · split <;> exact hretrying
    · split <;> rfl
  · refine exec_of_no_effect (f := (·.retryExpiry h)) rfl hq (if_neg fun hruns => ?_) ho
    obtain ⟨hhead, ht⟩ := hruns
    rcases hidle with hne | hoff
    · exact hne hhead
    · exact absurd (ht.symm.trans hoff) (by decide)
  · refine exec_of_effect (f := (·.slewExpiry h)) rfl hq ?_ (modLane_outputsFollow ho rfl Iff.rfl) rfl
    rw [State.slewExpiry, if_pos ⟨hhead, Option.isSome_iff_ne_none.2 ht⟩]
    exact congrArg s.setLanes (congrArg (s.lanes.set h) (slew_eq (s.lane h)))
  · exact exec_of_no_effect (f := (·.slewExpiry h)) rfl hq (if_neg (not_and_isSome_iff.1 hidle)) ho

end Sys2Proof.Machine
end

section
/-! The end of a probe, and the LANESCAN that waits for it. -/

namespace Sys2Proof.Machine

/-- A lane whose probe ends without an answer. -/
def Lane.probeEnded (x : Lane) : Lane := { x with probe := none, exchange := none }

/-- A lane whose probe ends with an answer, which gives its temperature (R145). -/
def Lane.probeAnswered (t : Byte) (x : Lane) : Lane := { x.probeEnded with temperature := min 127 t.toNat }

theorem identifyAnswer_of_awaited {s : State} {h : LaneId} {n : Nat} {t : Byte} {p : Probe}
    (hex : (s.lane h).exchange = some .identify) (hp : (s.lane h).probe = some p) :
    s.identifyAnswer h (s.lane h).identifies n t =
      (match p with
        | .plain known => (s.modLane h (·.probeAnswered t)).endPlain h known (n == 1024)
        | .retry => (s.modLane h (·.probeAnswered t)).endRetry h n).scanned h := by
  have hawaits : (s.lane h).awaits (s.lane h).identifies = some p := (awaits_eq_some _ _ _).2 ⟨hex, rfl, hp⟩
  rw [State.identifyAnswer, hawaits]
  cases p <;> rfl

theorem identifyAnswer_of_not_awaited {s : State} {h : LaneId} {i n : Nat} {t : Byte}
    (hno : (s.lane h).exchange ≠ some .identify ∨ (s.lane h).probe = none ∨ i ≠ (s.lane h).identifies) :
    s.identifyAnswer h i n t = s := by
  have hawaits : (s.lane h).awaits i = none := by
    cases hp : (s.lane h).awaits i with
    | none => rfl
    | some p =>
      obtain ⟨hex, hi, hprobe⟩ := (awaits_eq_some _ _ _).1 hp
      rcases hno with hne | hnone | hne
      · exact absurd hex hne
      · exact absurd (hnone.symm.trans hprobe) (by simp)
      · exact absurd hi.symm hne
  rw [State.identifyAnswer, hawaits]

theorem identifyTimeout_of_probe {s : State} {h : LaneId} {p : Probe}
    (hex : (s.lane h).exchange = some .identify) (hp : (s.lane h).probe = some p) :
    s.identifyTimeout h =
      (match p with
        | .plain known => (s.modLane h Lane.probeEnded).endPlain h known false
        | .retry => (s.modLane h Lane.probeEnded).loseRetry h).scanned h := by
  rw [State.identifyTimeout, hex, hp]
  cases p <;> rfl

theorem identifyTimeout_of_none {s : State} {h : LaneId}
    (hno : (s.lane h).exchange ≠ some .identify ∨ (s.lane h).probe = none) : s.identifyTimeout h = s := by
  unfold State.identifyTimeout
  split
  next hex hp => exact (hno.elim (· hex) fun hnone => by simp [hnone] at hp).elim
  next => rfl

/-- The lane change that the end of a plain probe reports, by the head that stood before (R92). -/
def State.laneChanged (s : State) (before : HeadState) (known present : Bool) : State :=
  if known = true ∧ decide (before ≠ .absent) ≠ present then s.raise .service .lanechange else s

theorem endPlain_modLane (s : State) (h : LaneId) (f : Lane → Lane) (known present : Bool)
    (hhead : (f (s.lane h)).head = (s.lane h).head) :
    (s.modLane h f).endPlain h known present =
      (s.modLane h fun x => { f x with head := if present then .off else .absent }).laneChanged (s.lane h).head known
        present := by
  have hbefore : (((s.modLane h f).lane h).head != .absent) = decide ((s.lane h).head ≠ .absent) := by
    rw [modLane_lane_same, hhead]
    cases (s.lane h).head <;> rfl
  rw [State.endPlain, modLane_modLane, hbefore]
  rfl

theorem endRetry_of_other {s : State} (h : LaneId) (f : Lane → Lane) {n : Nat} (hn : n ≠ 1024) :
    (s.modLane h f).endRetry h n =
      (s.modLane h fun x => { f x with head := .absent }).raise .service .lanechange := by
  rw [State.endRetry, if_pos hn, modLane_modLane]

theorem endRetry_of_cool {s : State} {h : LaneId} {f : Lane → Lane}
    (hcool : ((f (s.lane h)).temperature : Int) < (f (s.lane h)).retryBound) :
    (s.modLane h f).endRetry h 1024 =
      s.modLane h fun x => { f x with head := .warming, warmTimer := some (f x).warmTime } := by
  rw [State.endRetry, if_neg (by decide), modLane_lane_same, if_pos hcool, modLane_modLane]

theorem endRetry_of_hot {s : State} {h : LaneId} {f : Lane → Lane}
    (hhot : ¬((f (s.lane h)).temperature : Int) < (f (s.lane h)).retryBound) :
    (s.modLane h f).endRetry h 1024 = s.modLane h fun x => { f x with retryTimer := true } := by
  rw [State.endRetry, if_neg (by decide), modLane_lane_same, if_neg hhot, modLane_modLane]

/-- A retry probe that drew no answer: the loss is counted, and HEADFAILED raised when no retry is left (R149). -/
theorem loseRetry_eq (s : State) (h : LaneId) :
    s.loseRetry h =
      (let v := (s.modLane h fun x =>
        { x with
          lastFault := some .laneLoss
          head := if x.retries < 3 then .recovery else .failed
          retries := if x.retries < 3 then x.retries + 1 else x.retries
          retryTimer := decide (x.retries < 3) }).raise .service .headfault
      if (s.lane h).retries < 3 then v else v.raise .service .headfailed) := by
  have hretry : (fun ln : Lane => ({ ln with lastFault := some .laneLoss } : Lane).retry) = _ :=
    funext fun ln => retry_eq { ln with lastFault := some .laneLoss }
  rw [State.loseRetry, hretry]
  unfold State.raiseFault
  dsimp only
  by_cases hr : (s.lane h).retries < 3
  · rw [if_pos hr, if_neg]
    rw [State.lane, raise_lanes, ← State.lane, modLane_lane_same]
    simp [hr]
  · rw [if_neg hr, if_pos]
    rw [State.lane, raise_lanes, ← State.lane, modLane_lane_same]
    simp [hr]

theorem scanned_of_other {s : State} {h : LaneId} {tag : Byte} {running found : PerLane Bool} 
    (hb : (s.link .service).busy = some (.scan tag running found)) (hr : running.get h = true) :
    s.scanned h =
      if laneIds.any (running.set h false).get then
        s.setBusy .service (some (.scan tag (running.set h false) (found.set h (decide ((s.lane h).head ≠ .absent)))))
      else (s.setBusy .service none).reply .service tag .ok [laneSetByte (found.set h (decide ((s.lane h).head ≠ .absent)))] := by
  have hne : ((s.lane h).head != .absent) = decide ((s.lane h).head ≠ .absent) := by
    cases (s.lane h).head <;> rfl
  rw [State.scanned, hb]
  dsimp only
  rw [if_pos hr, hne]

/-- Settles O39: how a plain and a retry probe end, answered or not, and the scan that waits. -/
theorem probesEnd : Obligations.ProbesEnd := by
  intro s h hq ln ended answered loss changed
  refine ⟨fun n t known hex hp => ?_, fun known hex hp => ?_, fun n t hex hp hn => ?_, fun t hex hp => ?_,
    fun hex hp => ?_, fun i n t ho hno => ?_, fun ho hno => ?_, fun tag running found hb hr => ?_⟩
  · refine effects_of_quiet (f := (·.identifyAnswer h ln.identifies n t)) rfl hq ?_
    refine (identifyAnswer_of_awaited hex hp).trans (congrArg (State.scanned · h) ?_)
    refine (endPlain_modLane s h _ known _ rfl).trans ?_
    by_cases hn : n = 1024
    · subst hn
      rfl
    · simp only [beq_eq_false_iff_ne.2 hn, changed, hn, decide_false, if_false, Bool.false_eq_true]
      rfl
  · refine effects_of_quiet (f := (·.identifyTimeout h)) rfl hq ?_
    refine (identifyTimeout_of_probe hex hp).trans (congrArg (State.scanned · h) ?_)
    exact endPlain_modLane s h _ known _ rfl
  · refine effects_of_quiet (f := (·.identifyAnswer h ln.identifies n t)) rfl hq ?_
    refine (identifyAnswer_of_awaited hex hp).trans (congrArg (State.scanned · h) ?_)
    exact endRetry_of_other h _ hn
  · intro cool
    refine ⟨fun hc => ?_, fun hc => ?_⟩
    · refine effects_of_quiet (f := (·.identifyAnswer h ln.identifies 1024 t)) rfl hq ?_
      exact (identifyAnswer_of_awaited hex hp).trans (congrArg (State.scanned · h) (endRetry_of_cool hc))
    · refine effects_of_quiet (f := (·.identifyAnswer h ln.identifies 1024 t)) rfl hq ?_
      exact (identifyAnswer_of_awaited hex hp).trans (congrArg (State.scanned · h) (endRetry_of_hot hc))
  · refine effects_of_quiet (f := (·.identifyTimeout h)) rfl hq ?_
    refine (identifyTimeout_of_probe hex hp).trans (congrArg (State.scanned · h) ?_)
    have hloss : (s.modLane h Lane.probeEnded).modLane h _ = s.modLane h loss := modLane_modLane s h _ fun x =>
      { x with
        lastFault := some .laneLoss
        head := if x.retries < 3 then .recovery else .failed
        retries := if x.retries < 3 then x.retries + 1 else x.retries
        retryTimer := decide (x.retries < 3) }
    have hretries : ((s.modLane h Lane.probeEnded).lane h).retries = ln.retries :=
      (congrArg Lane.retries (modLane_lane_same s h Lane.probeEnded)).trans rfl
    rw [loseRetry_eq, hloss, hretries]
  · exact exec_of_no_effect (f := (·.identifyAnswer h i n t)) rfl hq (identifyAnswer_of_not_awaited hno) ho
  · exact exec_of_no_effect (f := (·.identifyTimeout h)) rfl hq (identifyTimeout_of_none hno) ho
  · intro running' found'
    have hs := scanned_of_other hb hr
    refine ⟨fun hany => ?_, fun hnone => ?_⟩
    · rw [hs, if_pos (by simpa [mem_laneIds] using hany)]
      rfl
    · rw [hs, if_neg (by simpa [mem_laneIds] using hnone)]
      rfl

end Sys2Proof.Machine
end

section
/-! Load replies, the row store arbiter, LOAD_SEND and FIRE_COMPLETE. -/

namespace Sys2Proof.Machine

/-! ### Load replies (R84, R110, R145, R150) -/

theorem loadReply_of_other {s : State} {h : LaneId} {n : Byte} (st : LoadStatus) (t : Byte)
    (reports : List NozzleReport) (hno : (s.lane h).exchange ≠ some (.load n)) :
    s.loadReply h n st t reports = s := if_neg hno

theorem loadTimeout_of_other {s : State} {h : LaneId} (hno : ∀ n, (s.lane h).exchange ≠ some (.load n)) :
    s.loadTimeout h = s := by
  unfold State.loadTimeout
  split
  next n hex => exact absurd hex (hno n)
  next => rfl

theorem sendIdentify_of_due {s : State} {h : LaneId} (hp : (s.lane h).probe ≠ none)
    (hex : (s.lane h).exchange = none) :
    s.sendIdentify h = (s.modLane h Lane.identify).send (.head h .identify) :=
  if_pos ⟨Option.isSome_iff_ne_none.2 hp, hex⟩

theorem sendIdentify_of_not_due {s : State} {h : LaneId}
    (hno : (s.lane h).probe = none ∨ (s.lane h).exchange ≠ none) : s.sendIdentify h = s := by
  refine if_neg fun hdue => ?_
  obtain ⟨hp, hex⟩ := hdue
  exact hno.elim (Option.isSome_iff_ne_none.1 hp) (· hex)

/-- Settles O40: the load replies in their order, by status. -/
theorem loadRepliesAreTaken : Obligations.LoadRepliesAreTaken := by
  intro s h hq hot answered counts marks temperature
  refine ⟨fun n t reports hex => ⟨?_, ?_, ?_, ?_⟩, fun u => ⟨sendIdentify_of_due, sendIdentify_of_not_due⟩,
    fun ho => ⟨fun n st t reports hno => ?_, fun hno => ?_⟩⟩
  · exact effects_of_quiet (f := (·.loadReply h n .ok t reports)) rfl hq (if_pos hex)
  · exact effects_of_quiet (f := (·.loadReply h n .loadCheck t reports)) rfl hq (if_pos hex)
  · exact effects_of_quiet (f := (·.loadReply h n .driveFault t reports)) rfl hq (if_pos hex)
  · refine effects_of_quiet (f := (·.loadTimeout h)) rfl hq ?_
    have hcounts : counts (fun x => { x with noReply := min 3 (x.noReply + 1) }) (s.modLane h (answered .rejected)) =
        s.modLane h fun ln => let ln := ln.endExchange .rejected
          if ln.head = .recovery then ln else { ln with noReply := min 3 (ln.noReply + 1) } := modLane_modLane s h _ _
    rw [hcounts, State.loadTimeout, hex]
  · exact exec_of_no_effect (f := (·.loadReply h n st t reports)) rfl hq (loadReply_of_other st t reports hno) ho
  · exact exec_of_no_effect (f := (·.loadTimeout h)) rfl hq (loadTimeout_of_other hno) ho

/-! ### The row store arbiter (R82, R83) -/

/-- A lane whose load moves from one stage to the next, if it stands at the first. -/
def Lane.staged (x : Lane) (old new : LoadStage) : Lane :=
  { x with load := x.load.map fun ld => if ld.stage = old then { ld with stage := new } else ld }

theorem staged_of_other {x : Lane} {old new : LoadStage} (h : ∀ ld, x.load = some ld → ld.stage ≠ old) :
    x.staged old new = x := by
  have hload : (x.load.map fun ld => if ld.stage = old then { ld with stage := new } else ld) = x.load := by
    cases hx : x.load with
    | none => rfl
    | some ld => exact congrArg some (if_neg (h ld hx))
  rw [Lane.staged, hload]

/-- The lowest lane of those a condition names. -/
theorem find_laneIds {p : LaneId → Bool} {h : LaneId} (hh : p h = true)
    (hlower : ∀ g, laneNumber g < laneNumber h → p g = false) : laneIds.find? p = some h := by
  cases h <;> simp_all [laneIds, laneNumber]

theorem claimsRead_iff {x : Lane} : x.claimsRead = true ↔ ∃ ld, x.load = some ld ∧ ld.stage = .readWait := by
  unfold Lane.claimsRead
  cases x.load <;> simp

theorem rowputInProgress_iff {s : State} :
    s.rowputInProgress = true ↔ ∃ tag page row b part, (s.link .image).busy = some (.rowput tag page row b part) := by
  unfold State.rowputInProgress
  split
  next h => simp [h]
  next h =>
    simp only [Bool.false_eq_true, false_iff, not_exists]
    exact h

theorem grant_of_read {s : State} {h : LaneId} (hfree : s.ring.store = .free) (hclaims : (s.lane h).claimsRead = true)
    (hlower : ∀ g, laneNumber g < laneNumber h → (s.lane g).claimsRead = false) :
    s.grant = (s.modLane h (·.staged .readWait .readRun)).setStore (.read h) := by
  obtain ⟨ld, hload, hstage⟩ := claimsRead_iff.1 hclaims
  have hone : (s.lane h).atStage .readRun = (s.lane h).staged .readWait .readRun := by
    simp [Lane.atStage, Lane.staged, hload, hstage]
  rw [State.grant, if_pos hfree, find_laneIds (p := fun g => (s.lane g).claimsRead) hclaims hlower]
  exact congrArg (fun x => (s.setLanes (s.lanes.set h x)).setStore (.read h)) hone

theorem grant_of_no_read {s : State} (hfree : s.ring.store = .free) (hno : ∀ h, (s.lane h).claimsRead = false) :
    s.grant = if s.rowputInProgress then s.setStore .write else s := by
  have hnone : (laneIds.find? fun h => (s.lane h).claimsRead) = none :=
    List.find?_eq_none.2 fun h _ => by simp [hno h]
  rw [State.grant, if_pos hfree, hnone]

theorem readDone_of_read {s : State} {h : LaneId} (hstore : s.ring.store = .read h) :
    s.readDone = (s.modLane h (·.staged .readRun .transfer)).setStore .free := by
  have hone : (fun ln : Lane => match ln.load with
      | some ld => if ld.stage = .readRun then ln.atStage .transfer else ln
      | none => ln) = fun ln => ln.staged .readRun .transfer := by
    funext ln
    cases hload : ln.load with
    | none => exact (staged_of_other fun ld h => by simp [hload] at h).symm
    | some ld =>
      by_cases hstage : ld.stage = .readRun
      · simp [Lane.staged, Lane.atStage, hload, hstage]
      · rw [staged_of_other fun _ h => by simpa [← Option.some.inj (hload.symm.trans h)] using hstage]
        exact if_neg hstage
  rw [← hone]
  unfold State.readDone
  rw [hstore] <;> rfl

theorem readDone_of_other {s : State} (hno : ∀ h, s.ring.store ≠ .read h) : s.readDone = s := by
  unfold State.readDone
  split
  next h hstore => exact absurd hstore (hno h)
  next => rfl

theorem setStore_outputsFollow {s : State} (x : StoreAccess) (ho : s.outputsFollow) : (s.setStore x).outputsFollow :=
  (KeepsOutputs.of_eq (s := s) (t := s.setStore x) rfl rfl rfl rfl rfl rfl).outputsFollow ho

/-! ### LOAD_SEND and FIRE_COMPLETE (R70, R85, R144) -/

theorem send_outputsFollow {s : State} (m : Sent) (ho : s.outputsFollow) : (s.send m).outputsFollow := ho

/-- A lane that sends a load under a number, with the drive level that stands. -/
def Lane.sending (x : Lane) (ld : HeadLoad) (n : Byte) : Lane :=
  { x with
    number := n
    exchange := some (.load n)
    load := some { ld with stage := .awaiting, number := n, drive := x.drive } }

theorem loadSend_of_ready {s : State} {h : LaneId} {ld : HeadLoad} (hload : (s.lane h).load = some ld)
    (hstage : ld.stage = .transfer) (hex : (s.lane h).exchange = none) (hp : (s.lane h).probe = none) :
    s.loadSend h = (s.modLane h (·.sending ld ((s.lane h).number + 1))).send
      (.head h (.load ((s.lane h).number + 1) (s.lane h).drive ld.drops)) := by
  rw [State.loadSend, hload]
  exact if_pos ⟨hstage, hex, hp⟩

theorem loadSend_of_not_ready {s : State} {h : LaneId}
    (hno : (∀ ld, (s.lane h).load = some ld → ld.stage ≠ .transfer) ∨ (s.lane h).exchange ≠ none ∨
      (s.lane h).probe ≠ none) : s.loadSend h = s := by
  unfold State.loadSend
  split
  next ld hload =>
    refine if_neg fun hready => ?_
    obtain ⟨hstage, hex, hp⟩ := hready
    rcases hno with hno | hno | hno
    · exact hno ld hload hstage
    · exact hno hex
    · exact hno hp
  next => rfl

theorem fireComplete_of_open {s : State} {h : LaneId} {ld : HeadLoad} (hfire : (s.lane h).fire = some ld)
    (hopen : (s.lane h).fireOpen = true) :
    s.fireComplete h ld.number = s.modLane h fun x => { x with fireOpen := false } := by
  rw [State.fireComplete, hfire]
  exact if_pos ⟨hopen, rfl⟩

theorem fireComplete_of_other {s : State} {h : LaneId} {n : Byte}
    (hno : (∀ ld, (s.lane h).fire = some ld → ld.number ≠ n) ∨ (s.lane h).fireOpen = false) :
    s.fireComplete h n = s := by
  unfold State.fireComplete
  split
  next ld hfire =>
    refine if_neg fun hopen => ?_
    obtain ⟨hopen, hn⟩ := hopen
    exact hno.elim (fun hno => hno ld hfire hn) fun hclosed => by simp [hclosed] at hopen
  next => rfl

/-- Settles O41: the row store's grants, loads sent, and fire windows closed. -/
theorem loadsAreGrantedSentAndFired : Obligations.LoadsAreGrantedSentAndFired := by
  refine ⟨fun s hq ho => ⟨fun h hfree hw hlower => ?_, fun hfree hno hw => ?_, fun hno => ?_, fun h hstore => ?_,
    fun hno => ?_⟩, fun s h hq ho => ⟨fun ld hload hstage hex hp => ?_, fun hno => ?_, fun ld hfire hopen => ?_,
    fun n hno => ?_⟩⟩
  · refine exec_of_effect (f := State.grant) rfl hq (grant_of_read hfree (claimsRead_iff.2 hw) fun g hg => ?_)
      (setStore_outputsFollow _ (modLane_outputsFollow ho rfl Iff.rfl)) rfl
    exact Bool.eq_false_iff.2 (mt claimsRead_iff.1 (hlower g hg))
  · refine exec_of_effect (f := State.grant) rfl hq ?_ (setStore_outputsFollow _ ho) rfl
    rw [grant_of_no_read hfree fun h => Bool.eq_false_iff.2 (mt claimsRead_iff.1 (hno h)),
      if_pos (rowputInProgress_iff.2 hw)]
    rfl
  · refine exec_of_no_effect (f := State.grant) rfl hq ?_ ho
    by_cases hfree : s.ring.store = .free
    · obtain ⟨hreads, hwrites⟩ := hno.resolve_left (not_not.2 hfree)
      rw [grant_of_no_read hfree fun h => Bool.eq_false_iff.2 (mt claimsRead_iff.1 (hreads h)),
        if_neg (mt rowputInProgress_iff.1 hwrites)]
    · exact if_neg hfree
  · exact exec_of_effect (f := State.readDone) rfl hq (readDone_of_read hstore)
      (setStore_outputsFollow _ (modLane_outputsFollow ho rfl Iff.rfl)) rfl
  · exact exec_of_no_effect (f := State.readDone) rfl hq (readDone_of_other hno) ho
  · have hsent : ((s.modLane h (·.sending ld ((s.lane h).number + 1))).send
        (.head h (.load ((s.lane h).number + 1) (s.lane h).drive ld.drops))).outputsFollow :=
      send_outputsFollow _ (modLane_outputsFollow ho rfl Iff.rfl)
    exact exec_of_effect (f := (·.loadSend h)) rfl hq (loadSend_of_ready hload hstage hex hp) hsent rfl
  · exact exec_of_no_effect (f := (·.loadSend h)) rfl hq (loadSend_of_not_ready hno) ho
  · exact exec_of_effect (f := (·.fireComplete h ld.number)) rfl hq (fireComplete_of_open hfire hopen)
      (modLane_outputsFollow ho rfl Iff.rfl) rfl
  · exact exec_of_no_effect (f := (·.fireComplete h n)) rfl hq (fireComplete_of_other hno) ho

end Sys2Proof.Machine
end

section
/-! Writing edits, the switch of a bar and the views, and auto-marks. -/

namespace Sys2Proof.Machine

/-! ### Writing edits (R95, R96) -/

theorem targets_iff {e : Edit} {h : LaneId} {n : Nat} :
    e.targets h n = true ↔ e.lane = h ∧ e.first ≤ n ∧ n < e.first + e.count ∧ n ∉ e.excluded := by
  simp [Edit.targets, and_assoc]

theorem writeFrom_getElem? (e : Edit) (h : LaneId) (xs : List Nozzle) (m n : Nat) :
    (e.writeFrom h m xs)[n]? = xs[n]?.map fun x => if e.targets h (m + n) then e.writeTo x else x := by
  induction xs generalizing m n with
  | nil => rfl
  | cons x xs ih =>
    cases n with
    | zero => rfl
    | succ n => simp only [Edit.writeFrom, List.getElem?_cons_succ, ih, Nat.succ_add_eq_add_succ]

theorem writeEdits_append (es : List Edit) (e : Edit) (h : LaneId) (xs : List Nozzle) :
    writeEdits (es ++ [e]) h xs = e.writeFrom h 0 (writeEdits es h xs) :=
  List.foldl_append

theorem writeEdits_append_getElem? {es : List Edit} {h : LaneId} {xs : List Nozzle} {n : Nat} {x : Nozzle}
    (e : Edit) (hx : (writeEdits es h xs)[n]? = some x) :
    (writeEdits (es ++ [e]) h xs)[n]? = some (if e.targets h n then e.writeTo x else x) := by
  rw [writeEdits_append, writeFrom_getElem?, hx, Option.map_some, Nat.zero_add]

theorem same_self (x : NozzleState) : x.same x = true := by cases x <;> rfl

/-- An edit gives the state that stands, or FAILED where any cause of FAILED stands (R96). -/
theorem toState_same_iff (n : NewState) (x : NozzleState) :
    n.toState.same x = true ↔ n.toState = x ∨ (n = .failed ∧ ∃ cause, x = .failed cause) := by
  cases n <;> cases x <;> simp [NewState.toState, NozzleState.same]

/-- An edit leaves the state of an entry as it stands (R96). -/
def Edit.SameState (e : Edit) (x : Nozzle) : Prop :=
  e.state = none ∨ ∃ n, e.state = some n ∧ (n.toState = x.state ∨ (n = .failed ∧ ∃ cause, x.state = .failed cause))

theorem sameState_iff (e : Edit) (x : Nozzle) :
    e.SameState x ↔ ((e.state.map NewState.toState).getD x.state).same x.state = true := by
  cases hn : e.state with
  | none => simp [Edit.SameState, hn, same_self]
  | some n => simp [Edit.SameState, hn, toState_same_iff]

theorem sameTrim_iff (e : Edit) (x : Nozzle) :
    (e.trim = none ∨ e.trim = some x.trim) ↔ e.trim.getD x.trim = x.trim := by
  cases e.trim <;> simp

theorem writeTo_idle (e : Edit) (x : Nozzle) :
    (e.SameState x → (e.writeTo x).idle = x.idle) ∧ (¬e.SameState x → (e.writeTo x).idle = 0) := by
  rw [sameState_iff]
  refine ⟨fun h => ?_, fun h => ?_⟩ <;> simp [Edit.writeTo, h]

theorem writeTo_acc (e : Edit) (x : Nozzle) :
    (e.SameState x ∧ (e.trim = none ∨ e.trim = some x.trim) → (e.writeTo x).acc = x.acc) ∧
      (¬(e.SameState x ∧ (e.trim = none ∨ e.trim = some x.trim)) → (e.writeTo x).acc = 0) := by
  rw [sameState_iff, sameTrim_iff]
  refine ⟨fun h => ?_, fun h => ?_⟩
  · simp [Edit.writeTo, h.1, h.2]
  · simp only [not_and_or, Bool.not_eq_true] at h
    rcases h with h | h <;> simp [Edit.writeTo, h]

/-- Settles O42: what an edit writes into an entry, and the edits of a list one after another. -/
theorem editsAreWrittenInOrder : Obligations.EditsAreWrittenInOrder := by
  refine ⟨fun e x => ?_, fun h xs => rfl, fun es e h xs n x hx => ⟨fun htargeted => ?_, fun hother => ?_⟩⟩
  · intro y given sameState sameTrim
    have hstate : sameState ↔ e.SameState x := by
      refine or_congr_right (exists_congr fun n => and_congr_right fun _ => ?_)
      cases n <;> exact Iff.rfl
    rw [hstate]
    refine ⟨?_, ?_, rfl, (writeTo_idle e x).1, (writeTo_idle e x).2, (writeTo_acc e x).1, (writeTo_acc e x).2⟩
    · cases hn : e.state with
      | none => simp [y, Edit.writeTo, hn]
      | some n => cases n <;> simp [y, Edit.writeTo, hn, given, NewState.toState]
    · cases hn : e.sub with
      | none => simp [y, Edit.writeTo, hn]
      | some n => cases n <;> simp [y, Edit.writeTo, hn, NewSub.toSub]
  · rw [writeEdits_append_getElem? e hx, if_pos (targets_iff.2 htargeted)]
  · rw [writeEdits_append_getElem? e hx, if_neg (mt targets_iff.1 hother)]

/-! ### The switch of a bar and the views (R105, R106, R108) -/

theorem all_toList_iff {α : Type} (x : PerBar α) (p : α → Bool) : x.toList.all p = true ↔ ∀ g, p (x.get g) = true := by
  refine ⟨fun h g => ?_, fun h => ?_⟩
  · simp only [PerBar.toList, List.all_cons, List.all_nil, Bool.and_true, Bool.and_eq_true] at h
    obtain ⟨h0, h1, h2, h3⟩ := h
    cases g <;> assumption
  · simp only [PerBar.toList, List.all_cons, List.all_nil, Bool.and_true, Bool.and_eq_true]
    exact ⟨h .b0, h .b1, h .b2, h .b3⟩

/-- A transition in which a bar has switched. -/
def Transition.switch (x : Transition) (b : BarId) : Transition := { x with switched := x.switched.set b (some true) }

theorem switchBar_of_due {s : State} {b : BarId} {x : Transition} (hx : s.lists.transition = some x)
    (hb : x.switched.get b = some false) :
    s.switchBar b x.page x.row =
      (let u := s.setLists { s.lists with transition := some (x.switch b) }
      if (x.switch b).switched.toList.all (· != some false) then u.endTransition else u) := by
  rw [State.switchBar, hx]
  exact if_pos ⟨rfl, rfl, hb⟩

theorem switchBar_of_not_due {s : State} {b : BarId} {page row : Nat}
    (hno : ∀ x, s.lists.transition = some x → x.page ≠ page ∨ x.row ≠ row ∨ x.switched.get b ≠ some false) :
    s.switchBar b page row = s := by
  unfold State.switchBar
  split
  next x hx =>
    refine if_neg fun hdue => ?_
    obtain ⟨hpage, hrow, hb⟩ := hdue
    rcases hno x hx with h | h | h
    · exact h hpage
    · exact h hrow
    · exact h hb
  next => rfl

theorem barView_eq_transition_iff {s : State} {b : BarId} :
    s.barView b = .transition ↔ ∃ x, s.lists.transition = some x ∧ x.switched.get b = some true := by
  unfold State.barView
  cases hx : s.lists.transition with
  | none => simp
  | some x => by_cases hb : x.switched.get b = some true <;> simp [hb]

theorem viewNozzles_table (s : State) (h : LaneId) : s.viewNozzles .table h = (s.lane h).nozzles := rfl

theorem viewNozzles_of_none {s : State} (v : View) (h : LaneId) (hx : s.lists.transition = none) :
    s.viewNozzles v h = (s.lane h).nozzles := by
  simp only [State.viewNozzles, hx]

theorem viewNozzles_of_some {s : State} {x : Transition} (h : LaneId) (hx : s.lists.transition = some x) :
    s.viewNozzles .transition h =
      List.zipWith overlay (s.lane h).nozzles (writeEdits x.edits h (s.lane h).nozzles) := by
  simp only [State.viewNozzles, hx]

/-- Settles O45: the switch of a bar, the end of the transition with the last, and the two views. -/
theorem barsSwitchAtTheTransitionsRow : Obligations.BarsSwitchAtTheTransitionsRow := by
  intro s b page row
  refine ⟨fun x hx hpage hrow hb => ?_, switchBar_of_not_due, barView_eq_transition_iff,
    fun h => ⟨rfl, viewNozzles_of_none _ h, fun x n own written hx hown hwritten => ?_⟩⟩
  · subst hpage hrow
    intro after t
    have ht : t = _ := switchBar_of_due hx hb
    have hall : ((x.switch b).switched.toList.all (· != some false)) = true ↔ ∀ g, after.switched.get g ≠ some false := by
      rw [all_toList_iff]
      exact forall_congr' fun g => bne_iff_ne
    refine ⟨fun hleft => ?_, fun hlast => ?_⟩
    · obtain ⟨g, hg⟩ := hleft
      exact ht.trans (if_neg fun h => hall.1 h g hg)
    · have hend : t = ((s.setLists { s.lists with transition := some after }).writeTransition after).endWait .nzcommit
          .ok (be16 x.edits.length) := ht.trans ((if_pos (hall.2 hlast)).trans (endTransition_of_some rfl))
      refine ⟨?_, fun h => ?_, ?_, fun tag hbusy => ?_, fun hidle => ?_, ?_, ?_, ?_, ?_⟩
      · rw [hend, endWait_lists]
        rfl
      · rw [hend, State.lane, endWait_lanes]
        exact writeTransition_lane _ after h
      · rw [hend, endWait_link, writeTransition_service]
        rfl
      · rw [hend]
        exact endWait_ends .ok _ hbusy
      · have hnone := hend.trans (endWait_of_not_waiting .ok (be16 x.edits.length) hidle)
        exact ⟨(congrArg State.sent hnone).trans rfl, (congrArg (fun u : State => (u.link .service).busy) hnone).trans rfl⟩
      · rw [hend, endWait_queue]
        rfl
      · rw [hend, endWait_ring]
        rfl
      · rw [hend, endWait_position]
        rfl
      · rw [hend, endWait_library]
        rfl
  · rw [viewNozzles_of_some h hx, List.getElem?_zipWith, hown, hwritten]
    rfl

/-! ### Auto-marks (R110, R113) -/

/-- A lane one of whose nozzles a report has failed. -/
def Lane.marked (ln : Lane) (r : NozzleReport) : Lane :=
  { ln with nozzles := ln.nozzles.modify r.nozzle (·.mark r.cause) }

/-- Settles O46: an auto-mark's entry, its edits and its event. -/
theorem autoMarksFailANozzle : Obligations.AutoMarksFailANozzle := by
  intro s h r t hit without moving
  refine ⟨fun hr => if_neg (by omega), fun hr => ?_⟩
  have ht : t = ((s.setLists (s.lists.mark h r.nozzle)).modLane h (·.marked r)).raise .service .nozzle :=
    if_pos (by omega)
  have hnozzles : (t.lane h).nozzles = (s.lane h).nozzles.modify r.nozzle (·.mark r.cause) := by
    rw [ht]
    exact (congrArg Lane.nozzles (modLane_lane_same (s.setLists (s.lists.mark h r.nozzle)) h (·.marked r))).trans rfl
  have hlists : s.lists.mark h r.nozzle =
      { pending := without s.lists.pending
        transition := s.lists.transition.map fun x => { x with edits := without x.edits }
        stage := s.lists.stage + 1
        superseded := min 65535
          (s.lists.superseded + ((s.lists.pending.filter hit).length + (moving.filter hit).length)) } := by
    simp only [← List.countP_eq_length_filter]
    rfl
  refine ⟨?_, ?_, fun n hn => ?_, fun x hx => ?_⟩
  · rw [← hlists, hnozzles]
    exact ht
  · rw [hnozzles, List.length_modify]
  · rw [hnozzles, List.getElem?_modify_ne _ _ (Ne.symm hn)]
  · rw [hnozzles, List.getElem?_modify_eq, hx]
    rfl

end Sys2Proof.Machine
end

section
/-! NZCOMMIT. -/

namespace Sys2Proof.Machine

theorem nzcommit_of_length_ne (s : State) (l : LinkId) (tag : Byte) {p : List Byte} (h : p.length ≠ 6) :
    s.nzcommit l tag p = s.refuse l tag .badLength := by
  rw [State.nzcommit]
  rintro _ _ _ _ _ _ rfl
  exact h rfl

theorem nzcommit_of_outOfRange (s : State) (l : LinkId) (tag : Byte) : ∀ {p : List Byte}, p.length = 6 →
    (1 < byteAt p 0 ∨ 1 < byteAt p 1) → s.nzcommit l tag p = s.refuse l tag .badField
  | [mode, rm, i1, i0, r1, r0], _, h => by
    rw [State.nzcommit]
    rcases h with hmode | hreply
    · have hnone : replyMode mode = none := replyMode_of_lt hmode
      simp only [hnone]
    · have hnone : replyMode rm = none := replyMode_of_lt hreply
      simp only [hnone]
      cases replyMode mode <;> rfl

/-- An ALIGNED commit of a page that is there (R102 checks 6 to 8, R104). -/
def State.commitPage (s : State) (l : LinkId) (tag : Byte) (q : Page) (row : Nat) (wait : Prop)
    [Decidable wait] : State :=
  if q.state = .done ∨ q.state = .aborted then s.refuse l tag .wrongState
  else if q.rowCount ≤ row then s.refuse l tag .badField
  else if s.rowBegun q row then s.refuse l tag .wrongState
  else if wait then (s.beginTransition q row).setBusy l (some (.waiting tag .nzcommit))
  else (s.beginTransition q row).reply l tag .ok (be16 s.lists.pending.length)

/-- An ALIGNED commit (R102 checks 5 to 8, R104). -/
def State.commitAligned (s : State) (l : LinkId) (tag : Byte) (id row : Nat) (wait : Prop)
    [Decidable wait] : State :=
  (s.page id).elim (s.refuse l tag .notFound) fun q => s.commitPage l tag q row wait

theorem nzcommit_of_inRange (s : State) (l : LinkId) (tag : Byte) : ∀ {p : List Byte}, p.length = 6 →
    ¬(1 < byteAt p 0 ∨ 1 < byteAt p 1) →
    s.nzcommit l tag p =
      if s.lists.transition.isSome then s.refuse l tag .wrongState
      else if s.lists.pending = [] then s.reply l tag .ok (be16 0)
      else if byteAt p 0 = 1 then s.commitAligned l tag (wordAt p 2) (wordAt p 4) (byteAt p 1 = 1)
      else s.commitNow.reply l tag .ok (be16 s.lists.pending.length)
  | [mode, rm, i1, i0, r1, r0], _, hin => by
    obtain ⟨hmode, hreply⟩ : ¬1 < mode.toNat ∧ ¬1 < rm.toNat := not_or.1 hin
    have hid : u16 i1 i0 = wordAt [mode, rm, i1, i0, r1, r0] 2 := u16_eq_wordAt i1 i0
    have hrow : u16 r1 r0 = wordAt [mode, rm, i1, i0, r1, r0] 4 := u16_eq_wordAt r1 r0
    simp only [State.nzcommit, replyMode_of_le hmode, replyMode_of_le hreply, decide_eq_true_eq, hid, hrow]
    refine if_congr Iff.rfl rfl (if_congr Iff.rfl rfl (if_congr Iff.rfl ?_ rfl))
    rw [State.commitAligned]
    cases s.page (wordAt [mode, rm, i1, i0, r1, r0] 2) <;> rfl

theorem rowBegun_iff {s : State} {q : Page} {row : Nat} :
    s.rowBegun q row = true ↔
      q.state = .printing ∧ ∃ b x, q.progress.get b ≠ none ∧ q.trigger = some x ∧
        (s.bar b).offset + row ≤ (s.position.line - x).toNat := by
  unfold State.rowBegun
  cases hx : q.trigger with
  | none => simp
  | some x => simp [mem_barIds, Page.hasBar, Option.isSome_iff_ne_none]

theorem commitNow_keepsOutputs (s : State) : KeepsOutputs s s.commitNow := by
  refine ⟨rfl, readyCondition_setLanes s _ fun g => ?_, rfl, rfl⟩
  have hlane : (s.writeTable s.lists.pending).lanes.get g = _ := PerLane.get_ofFn _ g
  rw [hlane]
  exact ⟨rfl, Iff.rfl⟩

theorem beginTransition_eq {s : State} {id row : Nat} {q : Page} (hq : s.page id = some q) :
    s.beginTransition q row = s.setLists
      { s.lists with
        pending := []
        transition := some
          { page := id, row := row, edits := s.lists.pending
            switched := q.progress.map fun x => if x.isSome then some false else none } } := by
  rw [State.beginTransition, page_id hq]
  rfl

/-- Settles O44: NZCOMMIT, its checks, and its two ways to write. -/
theorem nzcommitWritesOrAligns : Obligations.NzcommitWritesOrAligns := by
  intro s tag p hl c id row edits
  have hc := exec_of_listens (c := c) (act := State.nzcommit) hl rfl rfl rfl
  refine checked_cons_of_refuse hl hc (nzcommit_of_length_ne _ _ _) fun hlen => ?_
  refine checked_cons_of_refuse hl hc (nzcommit_of_outOfRange _ _ _ (not_not.1 hlen)) fun hin => ?_
  have ha := nzcommit_of_inRange (s.idleAssembler .service) .service tag (not_not.1 hlen) hin
  refine checked_cons hl hc Option.isSome_iff_ne_none.symm ha fun _ ha => ?_
  have ho := idleAssembler_outputsFollow s .service hl.2
  refine ⟨fun hnone => ?_, fun hsome hnow => ?_, fun hsome haligned => ?_⟩
  · exact exec_of_act hc (ha.trans (if_pos hnone)) (reply_outputsFollow _ _ _ _ ho) rfl
  · have ha := ha.trans ((if_neg hsome).trans (if_neg (by omega)))
    exact acceptsPlain_of_act hl hc ha (commitNow_keepsOutputs _)
  · have ha := ha.trans ((if_neg hsome).trans (if_pos haligned))
    refine checked_cons_of_refuse hl hc (fun hno => ?_) fun _ q hq => ?_
    · rw [ha, State.commitAligned, show (s.idleAssembler .service).page (wordAt p 2) = none from hno]
      rfl
    have hq' : (s.idleAssembler .service).page id = some q := hq
    intro t
    have ht : (s.idleAssembler .service).beginTransition q row = t := beginTransition_eq hq'
    rw [State.commitAligned, hq', Option.elim_some, State.commitPage, ht] at ha
    refine checked_cons hl hc Iff.rfl ha fun _ ha => ?_
    refine checked_cons hl hc Iff.rfl ha fun _ ha => ?_
    refine checked_cons hl hc rowBegun_iff.symm ha fun _ ha => ?_
    have hout : t.outputsFollow :=
      (KeepsOutputs.of_eq (s := s.idleAssembler .service) (t := t) rfl rfl rfl rfl rfl rfl).outputsFollow ho
    refine ⟨fun hwait => ?_, fun hpost => ?_⟩
    · exact exec_of_act hc (ha.trans (if_pos hwait)) (setBusy_outputsFollow _ _ hout) rfl
    · exact exec_of_act hc (ha.trans (if_neg (by omega))) (reply_outputsFollow _ _ _ _ hout) rfl

end Sys2Proof.Machine
end

section
/-! NZEDIT: the entries of a payload, and the edits they stage. -/

namespace Sys2Proof.Machine

/-! ### One entry (R98) -/

/-- The fields of an entry of nine bytes. -/
structure EditEntry where
  (lane first count presence state : Nat)
  (sub trim : Int)

/-- The entry at an offset of a payload. -/
def editEntry (p : List Byte) (b : Nat) : EditEntry where
  lane := byteAt p b
  first := wordAt p (b + 1)
  count := wordAt p (b + 3)
  presence := byteAt p (b + 5)
  state := byteAt p (b + 6)
  sub := signedAt p (b + 7)
  trim := signedAt p (b + 8)

theorem editEntry_congr {p q : List Byte} {b c : Nat} (h : ∀ k, k < 9 → byteAt p (b + k) = byteAt q (c + k)) :
    editEntry p b = editEntry q c := by
  have hlane : byteAt p b = byteAt q c := h 0 (by decide)
  have hfirst : wordAt p (b + 1) = wordAt q (c + 1) := by
    rw [wordAt, wordAt, h 1 (by decide), Nat.add_assoc, h 2 (by decide)]
  have hcount : wordAt p (b + 3) = wordAt q (c + 3) := by
    rw [wordAt, wordAt, h 3 (by decide), Nat.add_assoc, h 4 (by decide)]
  have hsub : signedAt p (b + 7) = signedAt q (c + 7) := by rw [signedAt, signedAt, h 7 (by decide)]
  have htrim : signedAt p (b + 8) = signedAt q (c + 8) := by rw [signedAt, signedAt, h 8 (by decide)]
  rw [editEntry, hlane, hfirst, hcount, h 5 (by decide), h 6 (by decide), hsub, htrim]
  rfl

/-- The substitute of an entry would lie outside -3 to 3, or off the head for one of its nozzles. -/
def EditEntry.BadSub (e : EditEntry) : Prop :=
  e.sub < -3 ∨ 3 < e.sub ∨ (e.first : Int) + e.sub < 0 ∨ 1023 < (e.first : Int) + e.count - 1 + e.sub

/-- An entry that is out of range (R98). -/
def EditEntry.Malformed (e : EditEntry) : Prop :=
  7 < e.lane ∨ 1023 < e.first ∨ e.count = 0 ∨ 1024 < e.first + e.count ∨ e.presence = 0 ∨ 7 < e.presence ∨
  (e.presence.testBit 0 = true ∧ 3 < e.state) ∨ (e.presence.testBit 1 = true ∧ e.BadSub) ∨
  (e.presence.testBit 2 = true ∧ (e.trim < -7 ∨ 7 < e.trim))

/-- The edit that an entry in range gives (R99). -/
def EditEntry.edit (mark : Line) (e : EditEntry) : Edit where
  lane := (laneOf e.lane).getD .hl0
  first := e.first
  count := e.count
  state := if e.presence.testBit 0 then some (if e.state = 0 then .good
    else if e.state = 1 then .weak else if e.state = 2 then .disabled else .failed) else none
  sub := if e.presence.testBit 1 then some (if e.sub = 0 then .clear else .offset e.sub) else none
  trim := if e.presence.testBit 2 then some e.trim else none
  excluded := []
  mark := mark

theorem newStateOf_of_le {n : Nat} (h : ¬3 < n) :
    newStateOf n = some (if n = 0 then .good else if n = 1 then .weak else if n = 2 then .disabled else .failed) := by
  have hn : n ≤ 3 := by omega
  interval_cases n <;> rfl

theorem newStateOf_of_lt : ∀ {n : Nat}, 3 < n → newStateOf n = none
  | _ + 4, _ => rfl

theorem toInt_eq_signedAt {x : Byte} {p : List Byte} {i : Nat} (h : byteAt p i = x.toNat) :
    x.toInt = signedAt p i := by
  rw [signedAt, h, BitVec.toInt_eq_toNat_cond]
  split <;> split <;> omega

/-- A field given is read, and one left out is not (R98). -/
theorem optionalField_eq_some {α : Type} {present : Bool} {x : Option α} {v : α} (h : present = true → x = some v) :
    optionalField present x = some (if present then some v else none) := by
  unfold optionalField
  cases present with
  | false => rfl
  | true => rw [h rfl]; rfl

theorem ne_none_of_optionalField {α : Type} {present : Bool} {x : Option α} {v : Option α}
    (h : optionalField present x = some v) (hp : present = true) : x ≠ none := by
  rintro rfl
  subst hp
  exact absurd h (by simp [optionalField])

theorem newSubOf_of_inRange {e : EditEntry} (h : ¬e.BadSub) :
    newSubOf e.first e.count e.sub = some (if e.sub = 0 then .clear else .offset e.sub) := by
  unfold EditEntry.BadSub at h
  unfold newSubOf
  by_cases hv : e.sub = 0
  · rw [if_pos hv, if_pos hv]
  · rw [if_neg hv, if_neg hv, if_pos (by omega)]

theorem newSubOf_of_outOfRange {e : EditEntry} (hend : e.first + e.count ≤ 1024)
    (h : e.BadSub) : newSubOf e.first e.count e.sub = none := by
  unfold EditEntry.BadSub at h
  unfold newSubOf
  rw [if_neg (by omega), if_neg (by omega)]

theorem newTrimOf_of_inRange {v : Int} (h : ¬(v < -7 ∨ 7 < v)) : newTrimOf v = some v := if_pos (by omega)

theorem newTrimOf_of_outOfRange {v : Int} (h : v < -7 ∨ 7 < v) : newTrimOf v = none := if_neg (by omega)

/-- The fields of an entry read as an edit, or none if one is out of range (R98). -/
def EditEntry.read (mark : Line) (e : EditEntry) : Option Edit :=
  if e.first ≤ 1023 ∧ 1 ≤ e.count ∧ e.first + e.count ≤ 1024 ∧ 1 ≤ e.presence ∧ e.presence ≤ 7 then
    match laneOf e.lane, optionalField (e.presence.testBit 0) (newStateOf e.state),
      optionalField (e.presence.testBit 1) (newSubOf e.first e.count e.sub),
      optionalField (e.presence.testBit 2) (newTrimOf e.trim) with
    | some h, some s, some u, some t => some ⟨h, e.first, e.count, s, u, t, [], mark⟩
    | _, _, _, _ => none
  else none

theorem editOf_eq (mark : Line) : ∀ {bs : List Byte}, bs.length = 9 → editOf mark bs = (editEntry bs 0).read mark
  | [lane, fh, fl, ch, cl, presence, st, sub, trim], _ => by
    have hfirst : u16 fh fl = (editEntry [lane, fh, fl, ch, cl, presence, st, sub, trim] 0).first := u16_eq_wordAt fh fl
    have hcount : u16 ch cl = (editEntry [lane, fh, fl, ch, cl, presence, st, sub, trim] 0).count := u16_eq_wordAt ch cl
    have hsub : sub.toInt = (editEntry [lane, fh, fl, ch, cl, presence, st, sub, trim] 0).sub := toInt_eq_signedAt rfl
    have htrim : trim.toInt = (editEntry [lane, fh, fl, ch, cl, presence, st, sub, trim] 0).trim := toInt_eq_signedAt rfl
    unfold editOf EditEntry.read
    simp only [hfirst, hcount, hsub, htrim] <;> rfl

theorem editOf_of_wellMade (mark : Line) {bs : List Byte} (hlen : bs.length = 9) (h : ¬(editEntry bs 0).Malformed) :
    editOf mark bs = some ((editEntry bs 0).edit mark) := by
  simp only [EditEntry.Malformed, not_or, not_and] at h
  obtain ⟨hlane, hfirst, hcount, hend, hnone, hpresence, hstate, hsub, htrim⟩ := h
  obtain ⟨g, hg⟩ := laneOf_of_le hlane
  rw [editOf_eq mark hlen, EditEntry.read, if_pos (by omega), hg, optionalField_eq_some fun hb => newStateOf_of_le (hstate hb),
    optionalField_eq_some fun hb => newSubOf_of_inRange (hsub hb),
    optionalField_eq_some fun hb => newTrimOf_of_inRange (not_or.2 (htrim hb)), EditEntry.edit, hg]
  rfl

theorem editOf_of_malformed (mark : Line) {bs : List Byte} (hlen : bs.length = 9) (h : (editEntry bs 0).Malformed) :
    editOf mark bs = none := by
  rw [editOf_eq mark hlen]
  unfold EditEntry.read
  split
  next hrange =>
    obtain ⟨hfirst, hcount, hend, hnone, hpresence⟩ := hrange
    split
    next g s u t hg hs hu ht =>
      exfalso
      rcases h with h | h | h | h | h | h | ⟨hb, h⟩ | ⟨hb, h⟩ | ⟨hb, h⟩
      · exact absurd ((laneOf_eq_none h).symm.trans hg) (by simp)
      · omega
      · omega
      · omega
      · omega
      · omega
      · exact ne_none_of_optionalField hs hb (newStateOf_of_lt h)
      · exact ne_none_of_optionalField hu hb (newSubOf_of_outOfRange hend h)
      · exact ne_none_of_optionalField ht hb (newTrimOf_of_outOfRange h)
    next => rfl
  next => rfl

/-! ### The entries of a payload -/

theorem editEntry_take (bs : List Byte) (i : Nat) : editEntry ((bs.drop (9 * i)).take 9) 0 = editEntry bs (9 * i) := by
  refine editEntry_congr fun k hk => ?_
  rw [byteAt, byteAt, List.getD_eq_getElem?_getD, List.getD_eq_getElem?_getD, List.getElem?_take_of_lt (by omega),
    List.getElem?_drop, Nat.zero_add]

theorem editEntry_drop (bs : List Byte) (i : Nat) : editEntry (bs.drop 9) (9 * i) = editEntry bs (9 * (i + 1)) := by
  refine editEntry_congr fun k _ => ?_
  rw [byteAt, byteAt, List.getD_eq_getElem?_getD, List.getD_eq_getElem?_getD, List.getElem?_drop,
    show 9 + (9 * i + k) = 9 * (i + 1) + k by omega]

theorem editsOf_of_wellMade (mark : Line) (n : Nat) (bs : List Byte) (hlen : bs.length = 9 * n)
    (h : ∀ i, i < n → ¬(editEntry bs (9 * i)).Malformed) :
    editsOf mark n bs = some ((List.range n).map fun i => (editEntry bs (9 * i)).edit mark) := by
  induction n generalizing bs with
  | zero => rfl
  | succ n ih =>
    have hrest := ih (bs.drop 9) (by rw [List.length_drop]; omega) fun i hi => by
      rw [editEntry_drop]
      exact h (i + 1) (by omega)
    have hhead : editOf mark (bs.take 9) = some ((editEntry bs 0).edit mark) := by
      rw [← editEntry_take bs 0]
      refine editOf_of_wellMade mark (by rw [List.length_take]; omega) ?_
      exact (editEntry_take bs 0) ▸ h 0 (by omega)
    simp only [editsOf, hhead, hrest, editEntry_drop, List.range_succ_eq_map, List.map_cons, List.map_map]
    rfl

theorem editsOf_of_malformed (mark : Line) (n : Nat) (bs : List Byte) (hlen : bs.length = 9 * n)
    (h : ∃ i, i < n ∧ (editEntry bs (9 * i)).Malformed) : editsOf mark n bs = none := by
  induction n generalizing bs with
  | zero =>
    obtain ⟨i, hi, _⟩ := h
    exact absurd hi (by omega)
  | succ n ih =>
    obtain ⟨i, hi, hbad⟩ := h
    cases i with
    | zero =>
      have hhead : editOf mark (bs.take 9) = none :=
        editOf_of_malformed mark (by rw [List.length_take]; omega) ((editEntry_take bs 0).symm ▸ hbad)
      rw [editsOf, hhead]
    | succ i =>
      have hrest := ih (bs.drop 9) (by rw [List.length_drop]; omega) ⟨i, by omega, by rw [editEntry_drop]; exact hbad⟩
      rw [editsOf, hrest]
      cases editOf mark (bs.take 9) <;> rfl

/-! ### NZEDIT (R98, R99) -/

theorem nzedit_nil (s : State) (l : LinkId) (tag : Byte) : s.nzedit l tag [] = s.refuse l tag .badLength := rfl

/-- NZEDIT with its count of entries. -/
theorem nzedit_of_ne_nil (s : State) (l : LinkId) (tag : Byte) : ∀ {p : List Byte}, p ≠ [] →
    s.nzedit l tag p =
      if byteAt p 0 = 0 ∨ 64 < byteAt p 0 then s.refuse l tag .badField
      else if p.length ≠ 1 + 9 * byteAt p 0 then s.refuse l tag .badLength
      else (editsOf (s.lists.stage + 1) (byteAt p 0) p.tail).elim (s.refuse l tag .badField) fun es =>
        if 256 < s.lists.pending.length + byteAt p 0 then s.refuse l tag .full
        else (s.setLists (s.lists.stageEdits es)).reply l tag .ok
          (be16 (s.lists.pending.length + es.length) ++ be32 (s.lists.stage + 1).toNat)
  | n :: entries, _ => by
    rw [State.nzedit]
    refine if_congr Iff.rfl rfl (if_congr ?_ rfl ?_)
    · simp [byteAt]
      omega
    · have hbyte : byteAt (n :: entries) 0 = n.toNat := rfl
      rw [hbyte, List.tail_cons]
      cases hes : editsOf (s.lists.stage + 1) n.toNat entries with
      | none => rfl
      | some es =>
        refine if_congr Iff.rfl rfl ?_
        rw [← List.length_append]
        rfl

/-- Settles O43: NZEDIT's checks in order, and the edits it stages. -/
theorem nzeditStagesItsEdits : Obligations.NzeditStagesItsEdits := by
  intro s tag p hl c n has first count state sub trim malformed
  have hc := exec_of_listens (c := c) (act := State.nzedit) hl rfl rfl rfl
  refine checked_cons_of_refuse hl hc (fun hp => by rw [hp, nzedit_nil]) fun hp => ?_
  have ha := nzedit_of_ne_nil (s.idleAssembler .service) .service tag hp
  refine checked_cons hl hc Iff.rfl ha fun hn ha => ?_
  refine checked_cons hl hc Iff.rfl ha fun hlen ha => ?_
  have htail : p.tail.length = 9 * n := by
    rw [List.length_tail, not_not.1 hlen]
    omega
  have hentry (i : Nat) : editEntry p.tail (9 * i) = editEntry p (9 * i + 1) := by
    refine editEntry_congr fun k _ => ?_
    rw [byteAt, byteAt, List.getD_eq_getElem?_getD, List.getD_eq_getElem?_getD, List.getElem?_tail,
      show 9 * i + k + 1 = 9 * i + 1 + k by omega]
  refine checked_cons_of_refuse hl hc (fun hbad => ?_) fun hgood => ?_
  · obtain ⟨i, hi, hbad⟩ := hbad
    rw [ha, editsOf_of_malformed _ _ _ htail ⟨i, hi, by rw [hentry]; exact hbad⟩]
    rfl
  · have hes := editsOf_of_wellMade (s.lists.stage + 1) n p.tail htail fun i hi hbad => hgood ⟨i, hi, by
      rw [hentry] at hbad; exact hbad⟩
    simp only [hentry] at hes
    have ha := ha.trans (congrArg (Option.elim · _ _) hes)
    refine checked_cons hl hc Iff.rfl ha fun _ ha => ?_
    refine acceptsPlain_of_act hl hc (ha.trans ?_) (KeepsOutputs.of_eq rfl rfl rfl rfl rfl rfl)
    rw [List.length_map, List.length_range]
    rfl

end Sys2Proof.Machine
end

section
/-! NZREAD: the layouts of its header and of a nozzle entry. -/

namespace Sys2Proof.Machine

/-! ### A nozzle entry (R180) -/

theorem nozzleEntry_length (x : Nozzle) (pending moving : Bool) : (nozzleEntry x pending moving).length = 4 := rfl

/-- The state and the fail cause of an entry, in its low four bits. -/
def nozzleCode : NozzleState → Nat
  | .good => 0 | .weak => 1 | .disabled => 2 | .failed .openNozzle => 7 | .failed .short => 11 | .failed .set => 15

theorem nozzleCode_eq (x : NozzleState) : nozzleStateCode x + 4 * failCauseCode x = nozzleCode x := by
  rcases x with _ | _ | _ | ⟨_ | _ | _⟩ <;> rfl

theorem nozzleCode_lt (x : NozzleState) : nozzleCode x < 16 := by
  rcases x with _ | _ | _ | ⟨_ | _ | _⟩ <;> decide

section Entry

variable (x : Nozzle) (pending moving : Bool)

theorem nozzleEntry_state :
    byteAt (nozzleEntry x pending moving) 0 = nozzleCode x.state + 16 * bitsToNat [pending, moving] := by
  have hbits := bitsToNat_lt [pending, moving]
  have hcode := nozzleCode_lt x.state
  have hbyte : byteAt (nozzleEntry x pending moving) 0 =
      (nozzleStateCode x.state + 4 * failCauseCode x.state + 16 * bitsToNat [pending, moving]) % 256 := toNat_be8 _
  rw [hbyte, nozzleCode_eq, Nat.mod_eq_of_lt]
  simp only [List.length_cons, List.length_nil] at hbits
  omega

theorem nozzleEntry_pending : (byteAt (nozzleEntry x pending moving) 0).testBit 4 = pending := by
  rw [nozzleEntry_state, Nat.add_comm, show 16 = 2 ^ 4 from rfl, Nat.testBit_two_pow_mul_add _ (nozzleCode_lt _)]
  cases pending <;> cases moving <;> rfl

theorem nozzleEntry_moving : (byteAt (nozzleEntry x pending moving) 0).testBit 5 = moving := by
  rw [nozzleEntry_state, Nat.add_comm, show 16 = 2 ^ 4 from rfl, Nat.testBit_two_pow_mul_add _ (nozzleCode_lt _)]
  cases pending <;> cases moving <;> rfl

theorem nozzleEntry_state_lt : byteAt (nozzleEntry x pending moving) 0 < 64 := by
  have hbits := bitsToNat_lt [pending, moving]
  have hcode := nozzleCode_lt x.state
  rw [nozzleEntry_state]
  simp only [List.length_cons, List.length_nil] at hbits
  omega

theorem nozzleEntry_trim :
    byteAt (nozzleEntry x pending moving) 1 = (x.trim % 16).toNat + 16 * ((x.sub.getD 0) % 8).toNat := by
  have hbyte : byteAt (nozzleEntry x pending moving) 1 = (lowBits 4 x.trim + 16 * lowBits 3 (x.sub.getD 0)) % 256 :=
    toNat_be8 _
  rw [hbyte, lowBits, lowBits]
  norm_num
  omega

theorem nozzleEntry_counts : wordAt (nozzleEntry x pending moving) 2 = (x.idle % 4096 + 4096 * x.acc) % 65536 :=
  be16_bytes _

end Entry

/-! ### The header (R180) -/

/-- The fields of the header of an NZREAD reply. -/
def headerFields (pending page row : Nat) (switched : Byte) (moving : Nat) : List (List Byte) :=
  [be16 pending, be16 page, be16 row, [switched], be16 moving]

theorem headerFields_lengths (pending page row : Nat) (switched : Byte) (moving : Nat) :
    (headerFields pending page row switched moving).map List.length = [2, 2, 2, 1, 2] := rfl

theorem header_of_some {x : NozzleLists} {t : Transition} (free : Line) (ht : x.transition = some t) :
    x.header free = (headerFields x.pending.length t.page t.row (barSetByte (t.switched.map fun v => v == some true))
      t.edits.length).flatten := by
  rw [NozzleLists.header, ht]
  rfl

theorem header_of_none {x : NozzleLists} (free : Line) (ht : x.transition = none) :
    x.header free = (headerFields x.pending.length 0 free.toNat 0 0).flatten := by
  rw [NozzleLists.header, ht]
  rfl

theorem header_length (x : NozzleLists) (free : Line) : (x.header free).length = 9 := by
  cases ht : x.transition with
  | some t =>
    rw [header_of_some free ht, List.length_flatten, headerFields_lengths]
    rfl
  | none =>
    rw [header_of_none free ht, List.length_flatten, headerFields_lengths]
    rfl

section Header

variable (pending page row : Nat) (switched : Byte) (moving : Nat) (q : List Byte)

theorem headerFields_read :
    wordAt ((headerFields pending page row switched moving).flatten ++ q) 0 = pending % 65536 ∧
    wordAt ((headerFields pending page row switched moving).flatten ++ q) 2 = page % 65536 ∧
    wordAt ((headerFields pending page row switched moving).flatten ++ q) 4 = row % 65536 ∧
    byteAt ((headerFields pending page row switched moving).flatten ++ q) 6 = switched.toNat ∧
    wordAt ((headerFields pending page row switched moving).flatten ++ q) 7 = moving % 65536 := by
  have hlens := headerFields_lengths pending page row switched moving
  exact ⟨wordAt_be16 hlens q 0 rfl rfl, wordAt_be16 hlens q 1 rfl rfl, wordAt_be16 hlens q 2 rfl rfl,
    byteAt_field (field := [switched]) q 3 rfl (sum_take_lengths hlens 3 rfl) (k := 0) Nat.one_pos, wordAt_be16 hlens q 4 rfl rfl⟩

end Header

/-! ### The reply (R101) -/

/-- The payload of an NZREAD reply. -/
def State.entriesRead (s : State) (start count : Nat) : List Byte :=
  s.lists.header (Config.freeWord s.fresh) ++ (List.range count).flatMap fun i => s.readEntry (start + i)

theorem readEntry_eq {s : State} {k : Nat} {h : LaneId} {x : Nozzle} (hh : laneNumber h = k / 1024)
    (hx : (s.lane h).nozzles[k % 1024]? = some x) :
    s.readEntry k = nozzleEntry x (s.lists.pending.any (·.targets h (k % 1024)))
      (s.lists.transitionEdits.any (·.targets h (k % 1024))) := by
  simp only [State.readEntry, laneOf_of_number hh, hx, Option.getD_some]

theorem readEntry_length {s : State} {k : Nat} (hk : k < 8192) : (s.readEntry k).length = 4 := by
  obtain ⟨h, hh⟩ := laneOf_of_le (n := k / 1024) (by omega)
  rw [State.readEntry, hh]
  rfl

theorem entriesRead_length {s : State} {start count : Nat} (h : start + count ≤ 8192) :
    (s.entriesRead start count).length = 9 + 4 * count := by
  rw [State.entriesRead, List.length_append, header_length, length_flatMap_of_length (m := 4), List.length_range]
  intro i hi
  exact readEntry_length (by have := List.mem_range.1 hi; omega)

theorem byteAt_entriesRead {s : State} {start count i : Nat} (h : start + count ≤ 8192) (hi : i < count) {k : Nat}
    (hk : k < 4) : byteAt (s.entriesRead start count) (9 + 4 * i + k) = byteAt (s.readEntry (start + i)) k := by
  rw [State.entriesRead, Nat.add_assoc, byteAt_append_right (header_length _ _), ← List.append_nil (List.flatMap _ _)]
  refine byteAt_flatMap (m := 4) (fun j hj => ?_) (List.getElem?_range hi) hk []
  exact readEntry_length (by have := List.mem_range.1 hj; omega)

theorem nzread_of_length_ne (s : State) (l : LinkId) (tag : Byte) {p : List Byte} (h : p.length ≠ 5) :
    s.nzread l tag p = s.refuse l tag .badLength := by
  rw [State.nzread]
  rintro _ _ _ _ _ rfl
  exact h rfl

theorem nzread_of_length (s : State) (l : LinkId) (tag : Byte) : ∀ {p : List Byte}, p.length = 5 →
    s.nzread l tag p =
      if 7 < byteAt p 0 ∨ 1023 < wordAt p 1 ∨ wordAt p 3 = 0 ∨ 256 < wordAt p 3 ∨
          8192 < 1024 * byteAt p 0 + wordAt p 1 + wordAt p 3 then s.refuse l tag .badField
      else s.draw.reply l tag .ok (s.entriesRead (1024 * byteAt p 0 + wordAt p 1) (wordAt p 3))
  | [lane, f1, f0, c1, c0], _ => by
    have hfirst : u16 f1 f0 = wordAt [lane, f1, f0, c1, c0] 1 := u16_eq_wordAt f1 f0
    have hcount : u16 c1 c0 = wordAt [lane, f1, f0, c1, c0] 3 := u16_eq_wordAt c1 c0
    rw [State.nzread, hfirst, hcount]
    rfl

/-- Settles O47: NZREAD's header and entries, field by field. -/
theorem nzreadReadsEntries : Obligations.NzreadReadsEntries := by
  intro s tag p hl hwhole c start count
  have hc := exec_of_listens (c := c) (act := State.nzread) hl rfl rfl rfl
  refine checked_cons_of_refuse hl hc (nzread_of_length_ne _ _ _) fun hlen => ?_
  have ha := nzread_of_length (s.idleAssembler .service) .service tag (not_not.1 hlen)
  refine checked_cons hl hc Iff.rfl ha fun hin ha => ?_
  have hend : start + count ≤ 8192 := by
    simp only [not_or] at hin
    omega
  refine ⟨s.entriesRead start count, ?_, entriesRead_length hend, ?_, fun hnone => ?_, fun x hx => ?_,
    fun i h x hi hh hx => ?_⟩
  · exact exec_of_act hc ha (reply_outputsFollow _ _ _ _ (idleAssembler_outputsFollow s .service hl.2)) rfl
  · cases hx : s.lists.transition with
    | none =>
      rw [State.entriesRead, header_of_none _ hx]
      exact (headerFields_read ..).1
    | some x =>
      rw [State.entriesRead, header_of_some _ hx]
      exact (headerFields_read ..).1
  · rw [State.entriesRead, header_of_none _ hnone]
    obtain ⟨_, hpage, _, hswitched, hmoving⟩ := headerFields_read s.lists.pending.length 0
      (Config.freeWord s.fresh).toNat 0 0 ((List.range count).flatMap fun i => s.readEntry (start + i))
    exact ⟨hpage, hswitched, hmoving⟩
  · rw [State.entriesRead, header_of_some _ hx]
    obtain ⟨_, hpage, hrow, hswitched, hmoving⟩ := headerFields_read s.lists.pending.length x.page x.row
      (barSetByte (x.switched.map fun v => v == some true)) x.edits.length
      ((List.range count).flatMap fun i => s.readEntry (start + i))
    refine ⟨hpage, hrow, hmoving, hswitched.trans_lt (barSetByte_lt _), fun b => ?_⟩
    rw [hswitched, barSetByte_testBit, PerBar.get_map]
  · intro n k
    have hbyte {j : Nat} (hj : j < 4) : byteAt (s.entriesRead start count) (k + j) =
        byteAt (nozzleEntry x (s.lists.pending.any (·.targets h n)) (s.lists.transitionEdits.any (·.targets h n))) j := by
      rw [byteAt_entriesRead hend hi hj, readEntry_eq hh hx]
    have hword : wordAt (s.entriesRead start count) (k + 2) = (x.idle % 4096 + 4096 * x.acc) % 65536 := by
      rw [wordAt, hbyte (by decide), Nat.add_assoc, hbyte (by decide)]
      exact nozzleEntry_counts ..
    have htrim := (hbyte (j := 1) (by decide)).trans (nozzleEntry_trim ..)
    have hstate : byteAt (s.entriesRead start count) k = _ := hbyte (j := 0) (by decide)
    rw [hword, htrim, hstate, nozzleEntry_pending, nozzleEntry_moving]
    refine ⟨?_, rfl, rfl, nozzleEntry_state_lt .., ?_, ?_, ?_, ?_⟩
    · rw [nozzleEntry_state, Nat.add_mul_mod_self_left, Nat.mod_eq_of_lt (nozzleCode_lt _)]
      rcases x.state with _ | _ | _ | ⟨_ | _ | _⟩ <;> rfl
    · omega
    · omega
    · omega
    · omega

end Sys2Proof.Machine
end

section
/-! PTNEW and PTDEL. -/

namespace Sys2Proof.Machine

/-! ### Extents (R157, R158) -/

theorem all_clearOf_iff {dir : List Pattern} {start n : Nat} :
    dir.all (·.clearOf start n) = true ↔ ∀ e ∈ dir, start + n ≤ e.start ∨ e.start + e.rows ≤ start := by
  simp [Pattern.clearOf]

theorem firstFit_eq_none_iff {dir : List Pattern} {n : Nat} (hn : n ≤ 1024) :
    firstFit dir n = none ↔ ∀ start, ¬FreeRun dir start n := by
  unfold firstFit
  rw [List.find?_eq_none]
  refine ⟨fun h start hfree => ?_, fun h start hstart hclear => ?_⟩
  · obtain ⟨hend, hclear⟩ := hfree
    refine h start (List.mem_range.2 ?_) (all_clearOf_iff.2 hclear)
    simp only [Config.patternRows]
    omega
  · have := List.mem_range.1 hstart
    simp only [Config.patternRows] at this
    exact h start ⟨by omega, all_clearOf_iff.1 hclear⟩

theorem firstFit_lowest {dir : List Pattern} {n start : Nat} (h : firstFit dir n = some start) :
    ∀ lower, lower < start → ¬FreeRun dir lower n := by
  intro lower hlower hfree
  obtain ⟨_, _, hbefore⟩ := List.find?_range_eq_some.1 h
  have hclear := hbefore lower hlower
  simp [all_clearOf_iff.2 hfree.2] at hclear

theorem pattern_isSome_iff {s : State} {n : Name} :
    (s.pattern n).isSome = true ↔ ∃ e ∈ s.library.directory, e.name = n := by
  simp [State.pattern]

theorem pattern_eq_none_iff {s : State} {n : Name} :
    s.pattern n = none ↔ ∀ e ∈ s.library.directory, e.name ≠ n := by
  simp [State.pattern]

/-! ### PTNEW (R158) -/

/-- The kind that a code in range gives (R158). -/
theorem kindOf_of_le {n : Nat} (h : ¬1 < n) : kindOf n = some (if n = 0 then .spit else .check) := by
  rcases (show n = 0 ∨ n = 1 by omega) with rfl | rfl <;> rfl

theorem kindOf_of_lt : ∀ {n : Nat}, 1 < n → kindOf n = none
  | _ + 2, _ => rfl

theorem ptnew_of_badLength (s : State) (l : LinkId) (tag : Byte) : ∀ {p : List Byte},
    p.length < 4 ∨ 11 < p.length → s.ptnew l tag p = s.refuse l tag .badLength
  | [], _ => rfl
  | [_], _ => rfl
  | [_, _], _ => rfl
  | _ :: _ :: _ :: name, h => by
    have hname : name = [] ∨ 8 < name.length := by
      simp only [List.length_cons] at h
      rw [← List.length_eq_zero_iff]
      omega
    exact if_pos hname

theorem ptnew_of_length (s : State) (l : LinkId) (tag : Byte) : ∀ {p : List Byte}, ¬(p.length < 4 ∨ 11 < p.length) →
    s.ptnew l tag p =
      if 1 < byteAt p 0 ∨ wordAt p 1 = 0 ∨ 256 < wordAt p 1 then s.refuse l tag .badField
      else if !(p.drop 3).all nameChar then s.refuse l tag .badField
      else if 24 ≤ s.library.directory.length then s.refuse l tag .full
      else if (s.pattern (p.drop 3)).isSome then s.refuse l tag .exists_
      else (firstFit s.library.directory (wordAt p 1)).elim (s.refuse l tag .noSpace) fun start =>
        (s.setDirectory (s.library.directory ++
          [⟨p.drop 3, if byteAt p 0 = 0 then .spit else .check, wordAt p 1, start, false, []⟩])).reply l tag .ok
            (be16 start)
  | [], h => absurd (Or.inl (by decide)) h
  | [_], h => absurd (Or.inl (by simp)) h
  | [_, _], h => absurd (Or.inl (by simp)) h
  | kind :: r1 :: r0 :: name, h => by
    have hname : ¬(name = [] ∨ 8 < name.length) := by
      simp only [List.length_cons] at h
      rw [← List.length_eq_zero_iff]
      omega
    have hrows : u16 r1 r0 = wordAt (kind :: r1 :: r0 :: name) 1 := u16_eq_wordAt r1 r0
    have hdrop : (kind :: r1 :: r0 :: name).drop 3 = name := rfl
    have hkind : byteAt (kind :: r1 :: r0 :: name) 0 = kind.toNat := rfl
    rw [State.ptnew, if_neg hname, hrows, hdrop, hkind]
    by_cases hk : 1 < kind.toNat
    · rw [kindOf_of_lt hk, if_pos (Or.inl hk)]
    · rw [kindOf_of_le hk]
      refine if_congr (by simp [hk]) rfl (if_congr Iff.rfl rfl (if_congr Iff.rfl rfl (if_congr Iff.rfl rfl ?_)))
      cases firstFit s.library.directory (wordAt (kind :: r1 :: r0 :: name) 1) <;> rfl

/-! ### PTDEL (R160) -/

theorem running_iff {x : CheckBar} : x.running = true ↔ x.outcome = .waiting ∨ x.outcome = .playing := by
  simp [CheckBar.running]

theorem runsAt_iff {r : CheckRec} {b : BarId} {id : Nat} :
    r.runsAt b id = true ↔ r.id = id ∧ ∃ x, r.bars.get b = some x ∧ (x.outcome = .waiting ∨ x.outcome = .playing) := by
  unfold CheckRec.runsAt
  cases r.bars.get b with
  | none => simp
  | some x => simp [running_iff]

theorem slotNames_iff {s : State} {b : BarId} {n : Name} :
    s.slotNames b n = true ↔ ∃ id r, ((s.bar b).checkSlot = some (.waiting id) ∨
      ∃ k, (s.bar b).checkSlot = some (.playing id k)) ∧ r ∈ s.library.checks ∧ r.id = id ∧ r.name = n ∧
        ∃ x, r.bars.get b = some x ∧ (x.outcome = .waiting ∨ x.outcome = .playing) := by
  have hany (id : Nat) : (s.library.checks.any fun r => r.runsAt b id && r.name == n) = true ↔
      ∃ r ∈ s.library.checks, r.id = id ∧ r.name = n ∧
        ∃ x, r.bars.get b = some x ∧ (x.outcome = .waiting ∨ x.outcome = .playing) := by
    simp only [List.any_eq_true, Bool.and_eq_true, runsAt_iff, beq_iff_eq]
    refine exists_congr fun r => and_congr_right fun _ => ?_
    rw [and_assoc]
    exact and_congr_right fun _ => and_comm
  unfold State.slotNames
  rcases (s.bar b).checkSlot with _ | ⟨id⟩ | ⟨id, k⟩
  · simp
  · simp only [hany, Option.some.injEq, CheckSlot.waiting.injEq, reduceCtorEq, exists_const, or_false, exists_eq_left',
      exists_and_left]
  · simp only [hany, Option.some.injEq, CheckSlot.playing.injEq, reduceCtorEq, false_or, exists_eq_left', exists_and_left,
      exists_eq', and_true]

theorem referenced_iff {s : State} {n : Name} :
    s.referenced n = true ↔ (∃ q ∈ s.queue.pages, q.gap = some n) ∨
      (∃ b id r, ((s.bar b).checkSlot = some (.waiting id) ∨ ∃ k, (s.bar b).checkSlot = some (.playing id k)) ∧
        r ∈ s.library.checks ∧ r.id = id ∧ r.name = n ∧
          ∃ x, r.bars.get b = some x ∧ (x.outcome = .waiting ∨ x.outcome = .playing)) ∨
      ∃ b g, (s.bar b).gapPlay = some g ∧ g.name = n := by
  simp only [State.referenced, Bool.or_eq_true, List.any_eq_true, beq_iff_eq, mem_barIds, true_and, slotNames_iff,
    exists_or]
  refine or_congr_right (or_congr_right (exists_congr fun b => ?_))
  cases (s.bar b).gapPlay <;> simp

theorem ptdel_eq (s : State) (l : LinkId) (tag : Byte) (p : List Byte) :
    s.ptdel l tag p =
      if p = [] ∨ 8 < p.length then s.refuse l tag .badLength
      else if !p.all nameChar then s.refuse l tag .badField
      else if s.pattern p = none then s.refuse l tag .notFound
      else if s.referenced p then s.refuse l tag .inUse
      else (s.setDirectory (s.library.directory.filter (·.name != p))).reply l tag .ok
        (be16 (freeRows (s.library.directory.filter (·.name != p)))) := by
  unfold State.ptdel
  cases s.pattern p <;> rfl

/-- Settles O49: PTNEW with its first-fit extent, and PTDEL. -/
theorem patternsAreCreatedAndDeleted : Obligations.PatternsAreCreatedAndDeleted := by
  refine ⟨fun s tag p hl => ?_, fun s tag p hl => ?_⟩
  · intro c rows name dir
    have hc := exec_of_listens (c := c) (act := State.ptnew) hl rfl rfl rfl
    refine checked_cons_of_refuse hl hc (ptnew_of_badLength _ _ _) fun hlen => ?_
    have ha := ptnew_of_length (s.idleAssembler .service) .service tag hlen
    refine checked_cons hl hc Iff.rfl ha fun hrows ha => ?_
    refine checked_cons hl hc not_all_nameChar_iff.symm ha fun _ ha => ?_
    refine checked_cons hl hc Iff.rfl ha fun _ ha => ?_
    refine checked_cons hl hc pattern_isSome_iff.symm ha fun _ ha => ?_
    have hfit : rows ≤ 1024 := by omega
    refine checked_cons_of_refuse hl hc (fun hno => ?_) fun hsome => ?_
    · have hnone : firstFit dir rows = none := (firstFit_eq_none_iff hfit).2 hno
      exact ha.trans (congrArg (Option.elim · _ _) hnone)
    · obtain ⟨start, hstart⟩ := Option.ne_none_iff_exists'.1 (mt (firstFit_eq_none_iff hfit).1 hsome)
      refine ⟨start, firstFit_freeRun hstart hfit, firstFit_lowest hstart, ?_⟩
      exact acceptsPlain_of_act hl hc (ha.trans (congrArg (Option.elim · _ _) hstart))
        (KeepsOutputs.of_eq rfl rfl rfl rfl rfl rfl)
  · intro c rest
    have hc := exec_of_listens (c := c) (act := State.ptdel) hl rfl rfl rfl
    have ha := ptdel_eq (s.idleAssembler .service) .service tag p
    refine checked_cons hl hc Iff.rfl ha fun _ ha => ?_
    refine checked_cons hl hc not_all_nameChar_iff.symm ha fun _ ha => ?_
    refine checked_cons hl hc pattern_eq_none_iff.symm ha fun _ ha => ?_
    refine checked_cons hl hc referenced_iff.symm ha fun _ ha => ?_
    exact acceptsPlain_of_act hl hc ha (KeepsOutputs.of_eq rfl rfl rfl rfl rfl rfl)

end Sys2Proof.Machine
end

section
/-! PTROW. -/

namespace Sys2Proof.Machine

/-! ### A padded name (R159) -/

/-- A field of eight bytes holds a name: its characters, then bytes of 0. -/
def NameInField (field name : List Byte) : Prop :=
  1 ≤ name.length ∧ (∀ x ∈ name, IsNameCharacter x) ∧ field = name ++ List.replicate (8 - name.length) 0

theorem nameChar_zero : nameChar 0 = false := by decide

theorem takeWhile_of_nameInField {field name : List Byte} (h : NameInField field name) :
    field.takeWhile (· != 0) = name := by
  obtain ⟨_, hchars, rfl⟩ := h
  rw [List.takeWhile_append_of_pos]
  · have hnone : (List.replicate (8 - name.length) (0 : Byte)).takeWhile (· != 0) = [] := by
      rw [List.takeWhile_replicate]
      rfl
    rw [hnone, List.append_nil]
  · intro x hx
    rw [bne_iff_ne]
    rintro rfl
    exact absurd (nameChar_iff.2 (hchars 0 hx)) (by decide)

theorem paddedName_of_nameInField {field name : List Byte} (h : NameInField field name) :
    paddedName field = some name := by
  have htake := takeWhile_of_nameInField h
  obtain ⟨hlen, hchars, hfield⟩ := h
  have hne : name ≠ [] := List.length_pos_iff.1 hlen
  have hrest : field.drop name.length = List.replicate (8 - name.length) 0 := by
    rw [hfield, List.drop_left]
  unfold paddedName
  simp only [htake, hrest]
  refine if_pos ?_
  simp [hne, List.all_eq_true, nameChar_iff]
  exact hchars

theorem nameInField_of_paddedName {field name : List Byte} (hlen : field.length = 8)
    (h : paddedName field = some name) : NameInField field name := by
  unfold paddedName at h
  simp only [Option.ite_none_right_eq_some, Option.some.injEq, Bool.and_eq_true, bne_iff_ne, List.all_eq_true, beq_iff_eq] at h
  obtain ⟨⟨⟨hne, hchars⟩, hzero⟩, hname⟩ := h
  rw [hname] at hne hchars hzero
  refine ⟨List.length_pos_iff.2 hne, fun x hx => nameChar_iff.1 (hchars x hx), ?_⟩
  have hpre : name <+: field := hname ▸ List.takeWhile_prefix _
  have hdrop : field.drop name.length = List.replicate (8 - name.length) 0 :=
    List.eq_replicate_iff.2 ⟨by rw [List.length_drop, hlen], hzero⟩
  rw [← hdrop]
  exact (List.prefix_iff_eq_append.1 hpre).symm

/-! ### PTROW (R159) -/

theorem ptrow_of_length_ne (s : State) (l : LinkId) (tag : Byte) {p : List Byte} (h : p.length ≠ 266) :
    s.ptrow l tag p = s.refuse l tag .badLength := if_pos h

theorem indexField {p : List Byte} (h : p.length = 266) :
    ∃ i1 i0, (p.drop 8).take 2 = [i1, i0] ∧ u16 i1 i0 = wordAt p 8 := by
  obtain ⟨i1, i0, hfield⟩ := List.length_eq_two.1 (show ((p.drop 8).take 2).length = 2 by simp [h])
  have hbyte {k : Nat} (hk : k < 2) : byteAt [i1, i0] k = byteAt p (8 + k) := by
    refine byteAt_eq_of_getElem? ?_
    rw [← hfield, List.getElem?_take_of_lt hk, List.getElem?_drop]
  refine ⟨i1, i0, hfield, (u16_eq_wordAt i1 i0).trans ?_⟩
  rw [wordAt, hbyte (by decide), hbyte (by decide)]
  rfl

/-- PTROW of a row to an entry that is there. -/
def State.writeRow (s : State) (l : LinkId) (tag : Byte) (p : List Byte) (e : Pattern) : State :=
  if e.rows ≤ wordAt p 8 then s.refuse l tag .badField
  else (s.writePattern e (wordAt p 8) (p.drop 10)).reply l tag .ok
    (be16 (e.write (wordAt p 8)).written.length ++ [be8 (bitsToNat [(e.write (wordAt p 8)).ready])])

theorem ptrow_of_length (s : State) (l : LinkId) (tag : Byte) {p : List Byte} (h : p.length = 266) :
    s.ptrow l tag p = (paddedName (p.take 8)).elim (s.refuse l tag .badField) fun n =>
      (s.pattern n).elim (s.refuse l tag .notFound) (s.writeRow l tag p) := by
  obtain ⟨i1, i0, hfield, hi⟩ := indexField h
  unfold State.ptrow
  rw [if_neg (not_not.2 h), hfield]
  cases paddedName (p.take 8) with
  | none => rfl
  | some n =>
    simp only [Option.elim_some]
    cases s.pattern n with
    | none => rfl
    | some e =>
      simp only [hi, Option.elim_some, State.writeRow]

theorem write_ready_iff {e : Pattern} {i : Nat} :
    (e.write i).ready = true ↔ e.ready = true ∨ ∀ k, k < e.rows → k ∈ (e.write i).written := by
  simp [Pattern.write]

theorem writePattern_memory {s : State} (e : Pattern) (i : Nat) {levels : List Byte} (hlen : levels.length = 256)
    (hwf : Memory.wf s.library.memory = true) (a : Nat) :
    Memory.read (s.writePattern e i levels).library.memory a =
      if 256 * (e.start + i) ≤ a ∧ a < 256 * (e.start + i) + 256 then levels.getD (a - 256 * (e.start + i)) 0
      else Memory.read s.library.memory a := by
  have hmem : (s.writePattern e i levels).library.memory =
      Memory.writeRun s.library.memory (256 * (e.start + i)) levels := rfl
  rw [hmem]
  by_cases ha : 256 * (e.start + i) ≤ a ∧ a < 256 * (e.start + i) + 256
  · obtain ⟨hlow, hhigh⟩ := ha
    have hin := Memory.read_writeRun_inside s.library.memory (256 * (e.start + i)) (a - 256 * (e.start + i)) levels hwf
      (by omega)
    rw [Nat.add_sub_cancel' hlow] at hin
    rw [if_pos ⟨hlow, hhigh⟩, hin, List.getD_eq_getElem]
  · rw [if_neg ha, Memory.read_writeRun_outside _ _ _ _ hwf (by omega)]

theorem pattern_name {s : State} {n : Name} {e : Pattern} (h : s.pattern n = some e) : e.name = n := by
  simpa using List.find?_some h

theorem writePattern_pattern {s : State} {n : Name} {e : Pattern} (h : s.pattern n = some e) (i : Nat)
    (levels : List Byte) :
    (s.writePattern e i levels).pattern n = some (e.write i) ∧
      ∀ m, m ≠ n → (s.writePattern e i levels).pattern m = s.pattern m := by
  have hfind (m : Name) : (s.writePattern e i levels).pattern m =
      (s.pattern m).map fun x => if x.name == e.name then x.write i else x := by
    have hname : ((·.name == m) : Pattern → Bool) ∘ (fun x => if x.name == e.name then x.write i else x) = (·.name == m) := by
      funext x
      rw [Function.comp_apply]
      split <;> rfl
    have hmap := List.find?_map (p := (·.name == m)) (f := fun x : Pattern => if x.name == e.name then x.write i else x)
      (l := s.library.directory)
    rw [hname] at hmap
    exact hmap
  refine ⟨?_, fun m hm => ?_⟩
  · rw [hfind, h, Option.map_some, if_pos (beq_self_eq_true e.name)]
  · rw [hfind]
    cases hx : s.pattern m with
    | none => rfl
    | some x =>
      rw [Option.map_some, if_neg]
      rw [pattern_name hx, pattern_name h, beq_iff_eq]
      exact hm

/-- Settles O50: PTROW's checks, and the row it writes. -/
theorem ptrowWritesOneRow : Obligations.PtrowWritesOneRow := by
  intro s tag p hl hwf c i wellMade
  have hc := exec_of_listens (c := c) (act := State.ptrow) hl rfl rfl rfl
  refine checked_cons_of_refuse hl hc (ptrow_of_length_ne _ _ _) fun hlen => ?_
  have hlen := not_not.1 hlen
  have ha := ptrow_of_length (s.idleAssembler .service) .service tag hlen
  refine checked_cons_of_refuse hl hc (fun hno => ?_) fun _ name hname => ?_
  · have hnone : paddedName (p.take 8) = none := Option.eq_none_iff_forall_ne_some.2 fun n hn =>
      hno n (nameInField_of_paddedName (by rw [List.length_take, hlen]; rfl) hn)
    rw [ha, hnone]
    rfl
  rw [paddedName_of_nameInField hname, Option.elim_some] at ha
  refine checked_cons_of_refuse hl hc (fun hno => ?_) fun _ e he => ?_
  · rw [ha, show (s.idleAssembler .service).pattern name = none from hno]
    rfl
  rw [show (s.idleAssembler .service).pattern name = some e from he, Option.elim_some] at ha
  refine checked_cons hl hc Iff.rfl ha fun _ ha => ?_
  have hlevels : (p.drop 10).length = 256 := by rw [List.length_drop, hlen]
  obtain ⟨hsame, hothers⟩ := writePattern_pattern (s := s.idleAssembler .service) he i (p.drop 10)
  refine ⟨e.write i, _, ?_, write_ready_iff, exec_of_act hc ha ?_ rfl, fun a => ?_, hsame, hothers, ?_⟩
  · simp [Pattern.write, addIndex]
  · exact reply_outputsFollow _ _ _ _ ((KeepsOutputs.of_eq rfl rfl rfl rfl rfl rfl).outputsFollow
      (idleAssembler_outputsFollow s .service hl.2))
  · refine (writePattern_memory (s := s.idleAssembler .service) e i hlevels hwf a).trans (if_congr Iff.rfl ?_ rfl)
    rw [List.getD_eq_getElem?_getD, List.getD_eq_getElem?_getD, List.getElem?_drop]
  · have hready : [be8 (bitsToNat [(e.write i).ready])] = [if (e.write i).ready then (1 : Byte) else 0] := by
      cases (e.write i).ready <;> rfl
    rw [← hready]
    rfl

end Sys2Proof.Machine
end

section
/-! PTLIST: the largest free run, and the layouts of its blocks. -/

namespace Sys2Proof.Machine

/-! ### The largest free run (R157, R169) -/

/-- The greatest value over a list is attained, or is the start value. -/
theorem le_foldl_max {α : Type} (f : α → Nat) (xs : List α) (m : Nat) :
    m ≤ xs.foldl (fun m x => max m (f x)) m ∧ ∀ x ∈ xs, f x ≤ xs.foldl (fun m x => max m (f x)) m := by
  induction xs generalizing m with
  | nil => exact ⟨le_rfl, by simp⟩
  | cons x xs ih =>
    obtain ⟨hm, hrest⟩ := ih (max m (f x))
    exact ⟨(le_max_left ..).trans hm, List.forall_mem_cons.2 ⟨(le_max_right ..).trans hm, hrest⟩⟩

theorem foldl_max_mem {α : Type} (f : α → Nat) (xs : List α) (m : Nat) :
    xs.foldl (fun m x => max m (f x)) m = m ∨ ∃ x ∈ xs, xs.foldl (fun m x => max m (f x)) m = f x := by
  induction xs generalizing m with
  | nil => exact .inl rfl
  | cons x xs ih =>
    rw [List.foldl_cons]
    rcases ih (max m (f x)) with h | ⟨y, hy, h⟩
    · rcases max_choice m (f x) with hmax | hmax
      · exact .inl (h.trans hmax)
      · exact .inr ⟨x, List.mem_cons_self, h.trans hmax⟩
    · exact .inr ⟨y, List.mem_cons_of_mem x hy, h⟩

/-- The distance from a row to the next start of a list, within a bound. -/
theorem le_foldl_distance_iff (start k : Nat) (xs : List Nat) (m : Nat) :
    k ≤ xs.foldl (fun m x => if start ≤ x then min m (x - start) else m) m ↔
      k ≤ m ∧ ∀ x ∈ xs, start ≤ x → k ≤ x - start := by
  induction xs generalizing m with
  | nil => simp
  | cons x xs ih =>
    rw [List.foldl_cons, ih, List.forall_mem_cons]
    by_cases hx : start ≤ x
    · simp [hx, and_assoc]
    · simp [hx]

/-- A row at which no extent lies across: a free run, if of no rows, can begin there. -/
def ClearAt (dir : List Pattern) (x : Nat) : Prop := x ≤ 1024 ∧ ∀ e ∈ dir, x ≤ e.start ∨ e.start + e.rows ≤ x

theorem runFrom_freeRun {dir : List Pattern} {x : Nat} (h : ClearAt dir x) : FreeRun dir x (runFrom dir x) := by
  obtain ⟨hx, hclear⟩ := h
  unfold runFrom
  split
  · exact ⟨hx, hclear⟩
  next hfree =>
    obtain ⟨hend, hstarts⟩ := (le_foldl_distance_iff x _ (dir.map (·.start)) (1024 - x)).1 le_rfl
    refine ⟨?_, fun e he => ?_⟩
    · simp only [Config.patternRows]
      omega
    · have hdist := hstarts e.start (List.mem_map_of_mem he)
      simp only [Config.patternRows]
      rcases hclear e he with hle | hend
      · have := hdist hle
        omega
      · exact .inr hend

theorem le_runFrom {dir : List Pattern} {x n : Nat} (hrows : ∀ e ∈ dir, 1 ≤ e.rows) (hn : 1 ≤ n)
    (h : FreeRun dir x n) : n ≤ runFrom dir x := by
  obtain ⟨hend, hclear⟩ := h
  unfold runFrom
  rw [if_neg]
  · rw [le_foldl_distance_iff]
    refine ⟨by simp only [Config.patternRows]; omega, fun y hy hle => ?_⟩
    obtain ⟨e, he, rfl⟩ := List.mem_map.1 hy
    have := hclear e he
    have := hrows e he
    omega
  · simp only [List.any_eq_true, Bool.and_eq_true, decide_eq_true_eq, not_exists, not_and]
    intro e he hle
    have := hclear e he
    omega

/-- The rows at which a free run can begin: row 0 and the ends of the extents. -/
def runStarts (dir : List Pattern) : List Nat := 0 :: dir.map fun e => e.start + e.rows

theorem clearAt_of_mem_runStarts {x : Library} (h : x.ordered) {start : Nat} (hs : start ∈ runStarts x.directory) :
    ClearAt x.directory start := by
  obtain ⟨_, _, hbounds, hdisjoint⟩ := h
  rcases List.mem_cons.1 hs with rfl | hs
  · exact ⟨by omega, fun _ _ => .inl (Nat.zero_le _)⟩
  · obtain ⟨d, hd, rfl⟩ := List.mem_map.1 hs
    obtain ⟨hrows, _, hend⟩ := hbounds d hd
    refine ⟨hend, fun e he => ?_⟩
    by_cases hde : d = e
    · exact .inr (by rw [hde])
    · have hsymm : Std.Symm fun d e : Pattern => d.start + d.rows ≤ e.start ∨ e.start + e.rows ≤ d.start :=
        ⟨fun _ _ h => h.symm⟩
      have hapart := hdisjoint.forall hd he hde
      omega

/-- The last start of a list at or below a row. -/
theorem exists_last_start {xs : List Nat} (h0 : 0 ∈ xs) (start : Nat) :
    ∃ x ∈ xs, x ≤ start ∧ ∀ y ∈ xs, y ≤ start → y ≤ x := by
  have hne : (xs.toFinset.filter (· ≤ start)).Nonempty := ⟨0, by simp [h0]⟩
  obtain ⟨x, hx, hmax⟩ := Finset.exists_max_image _ id hne
  obtain ⟨hmem, hle⟩ := Finset.mem_filter.1 hx
  exact ⟨x, List.mem_toFinset.1 hmem, hle, fun y hy hys =>
    hmax y (Finset.mem_filter.2 ⟨List.mem_toFinset.2 hy, hys⟩)⟩

/-- The start of the run of free rows in which a free run lies. -/
theorem exists_runStart {dir : List Pattern} {start n : Nat} (h : FreeRun dir start n) :
    ∃ x ∈ runStarts dir, x ≤ start ∧ FreeRun dir x (start - x + n) := by
  obtain ⟨hend, hclear⟩ := h
  obtain ⟨x, hx, hle, hlast⟩ := exists_last_start (xs := runStarts dir) List.mem_cons_self start
  refine ⟨x, hx, hle, by omega, fun e he => ?_⟩
  rcases hclear e he with hbefore | hafter
  · exact .inl (by omega)
  · exact .inr (hlast _ (List.mem_cons_of_mem 0 (List.mem_map_of_mem he)) hafter)

theorem largestRun_spec {x : Library} (h : x.ordered) :
    (∃ start, FreeRun x.directory start (largestRun x.directory)) ∧
      ∀ start n, FreeRun x.directory start n → n ≤ largestRun x.directory := by
  have hmax := (le_foldl_max (runFrom x.directory) (runStarts x.directory) 0).2
  refine ⟨?_, fun start n hfree => ?_⟩
  · rcases foldl_max_mem (runFrom x.directory) (runStarts x.directory) 0 with hzero | ⟨y, hy, hrun⟩
    · exact ⟨0, by rw [show largestRun x.directory = 0 from hzero]; exact ⟨by omega, fun _ _ => .inl (Nat.zero_le _)⟩⟩
    · exact ⟨y, by rw [show largestRun x.directory = _ from hrun]; exact runFrom_freeRun (clearAt_of_mem_runStarts h hy)⟩
  · obtain ⟨_, _, hbounds, _⟩ := h
    rcases Nat.eq_zero_or_pos n with rfl | hn
    · exact Nat.zero_le _
    · obtain ⟨y, hy, hle, hwhole⟩ := exists_runStart hfree
      have hrun := le_runFrom (fun e he => (hbounds e he).1) (by omega) hwhole
      exact ((Nat.le_add_left n _).trans hrun).trans (hmax y hy)

end Sys2Proof.Machine
end

section
/-! PTLIST: the directory entries, the check records and the bars' blocks. -/

namespace Sys2Proof.Machine

/-- A name of at most eight characters, padded to a field. -/
abbrev paddedField (n : Name) : List Byte := n ++ List.replicate (8 - n.length) 0

theorem toNat_be8_flag (b : Bool) : (be8 (bitsToNat [b])).toNat = if b then 1 else 0 := by cases b <;> rfl

/-! ### A directory entry (R180) -/

/-- The fields of a directory entry after its name. -/
def Pattern.entryFields (e : Pattern) : List (List Byte) :=
  [nameField (some e.name), [be8 (kindCode e.kind)], [be8 (bitsToNat [e.ready])], be16 e.rows, be16 e.start,
    be16 e.written.length]

theorem directoryEntry_eq (e : Pattern) : directoryEntry e = e.entryFields.flatten ++ [] := by
  simp [directoryEntry, Pattern.entryFields]

theorem entryFields_lengths (e : Pattern) : e.entryFields.map List.length = [8, 1, 1, 2, 2, 2] := by
  simp [Pattern.entryFields, nameField_length]

theorem directoryEntry_spec (e : Pattern) (hname : e.name.length ≤ 8) :
    let r := directoryEntry e
    r.length = 16 ∧ r.take 8 = e.name ++ List.replicate (8 - e.name.length) 0 ∧
    byteAt r 8 = (match e.kind with | .spit => 0 | .check => 1) ∧ byteAt r 9 = (if e.ready then 1 else 0) ∧
    wordAt r 10 = e.rows % 65536 ∧ wordAt r 12 = e.start % 65536 ∧ wordAt r 14 = e.written.length % 65536 := by
  have hlens := entryFields_lengths e
  rw [directoryEntry_eq]
  refine ⟨?_, ?_, ?_, ?_, wordAt_be16 hlens [] 3 rfl rfl, wordAt_be16 hlens [] 4 rfl rfl, wordAt_be16 hlens [] 5 rfl rfl⟩
  · rw [List.append_nil, List.length_flatten, hlens]
    rfl
  · rw [← nameField_of_length_le hname, Pattern.entryFields, List.append_nil, List.flatten_cons]
    exact List.take_left' (nameField_length _)
  · refine (byteAt_be8 hlens [] 1 rfl rfl).trans ?_
    cases e.kind <;> rfl
  · refine (byteAt_field (field := [be8 (bitsToNat [e.ready])]) [] 2 rfl (sum_take_lengths hlens 2 rfl) (k := 0)
      Nat.one_pos).trans ?_
    exact toNat_be8_flag e.ready

/-! ### A check record (R166, R180) -/

theorem checkBlock_length (free : Line) (x : CheckBar) : (checkBlock free x).length = 8 := by
  unfold checkBlock
  cases x.line <;> rfl

/-- The block of a bar in a check record: zero for a bar outside the check's set. -/
def checkBarBlock (base : Nat) (r : CheckRec) (b : BarId) : List Byte :=
  match r.bars.get b with
  | some x => checkBlock (Config.freeWord (base + barNumber b)) x
  | none => List.replicate 8 0

theorem checkBarBlock_length (base : Nat) (r : CheckRec) (b : BarId) : (checkBarBlock base r b).length = 8 := by
  unfold checkBarBlock
  split
  · exact checkBlock_length _ _
  · rfl

/-- The fields of a check record before its bars' blocks. -/
def CheckRec.checkFields (r : CheckRec) : List (List Byte) :=
  [[be8 r.id], nameField (some r.name), [barSetByte r.barSet], [be8 (bitsToNat [r.ended])]]

theorem checkRecord_eq (base : Nat) (r : CheckRec) :
    checkRecord base r = r.checkFields.flatten ++ barIds.flatMap (checkBarBlock base r) := by
  have hblocks : checkRecord base r = be8 r.id :: nameField (some r.name) ++ [barSetByte r.barSet, be8 (bitsToNat [r.ended])] ++
      barIds.flatMap (checkBarBlock base r) := rfl
  rw [hblocks, CheckRec.checkFields]
  simp only [List.flatten_cons, List.flatten_nil, List.append_nil, List.cons_append, List.nil_append, List.append_assoc]

theorem checkFields_lengths (r : CheckRec) : r.checkFields.map List.length = [1, 8, 1, 1] := by
  simp [CheckRec.checkFields, nameField_length]

theorem checkFields_length (r : CheckRec) : r.checkFields.flatten.length = 11 := by
  rw [List.length_flatten, checkFields_lengths]
  rfl

theorem checkRecord_length (base : Nat) (r : CheckRec) : (checkRecord base r).length = 43 := by
  rw [checkRecord_eq, List.length_append, checkFields_length,
    length_flatMap_of_length (m := 8) fun b _ => checkBarBlock_length base r b]
  rfl

/-- A block of a run of blocks of one length. -/
theorem take_drop_flatMap {α : Type} {f : α → List Byte} {m : Nat} :
    ∀ {xs : List α}, (∀ x ∈ xs, (f x).length = m) → ∀ {j : Nat} {x : α}, xs[j]? = some x →
      ((xs.flatMap f).drop (m * j)).take m = f x
  | [], _, _, _, hx => by simp at hx
  | y :: ys, hlen, 0, x, hx => by
    obtain rfl : y = x := by simpa using hx
    rw [Nat.mul_zero, List.drop_zero, List.flatMap_cons]
    exact List.take_left' (hlen y List.mem_cons_self)
  | y :: ys, hlen, j + 1, x, hx => by
    have hy := hlen y List.mem_cons_self
    rw [List.flatMap_cons, Nat.mul_add, Nat.mul_one, Nat.add_comm, ← List.drop_drop, List.drop_left' hy]
    exact take_drop_flatMap (fun z hz => hlen z (List.mem_cons_of_mem y hz)) (by simpa using hx)

theorem checkRecord_block (base : Nat) (r : CheckRec) (b : BarId) :
    ((checkRecord base r).drop (11 + 8 * barNumber b)).take 8 = checkBarBlock base r b := by
  rw [checkRecord_eq, ← List.drop_drop, List.drop_left' (checkFields_length r)]
  exact take_drop_flatMap (fun g _ => checkBarBlock_length base r g) (barIds_getElem? b)

theorem checkBlock_spec (free : Line) (x : CheckBar) :
    byteAt (checkBlock free x) 0 =
      (match x.outcome with | .waiting => 0 | .playing => 1 | .whole => 2 | .truncated => 3) ∧
    (∀ line, x.line = some line → byteAt (checkBlock free x) 1 = 1 ∧ longAt (checkBlock free x) 2 = line.toNat) ∧
    (x.line = none → byteAt (checkBlock free x) 1 = 0) ∧ wordAt (checkBlock free x) 6 = x.unprinted % 65536 := by
  unfold checkBlock
  cases hline : x.line with
  | none =>
    refine ⟨?_, by simp, fun _ => rfl, be16_bytes _⟩
    cases x.outcome <;> rfl
  | some line =>
    refine ⟨?_, fun l hl => ?_, by simp, be16_bytes _⟩
    · cases x.outcome <;> rfl
    · obtain rfl : line = l := by simpa using hl
      exact ⟨rfl, (be32_bytes _).trans (Nat.mod_eq_of_lt line.isLt)⟩

theorem checkRecord_spec (base : Nat) (e : CheckRec) (hname : e.name.length ≤ 8) :
    let r := checkRecord base e
    r.length = 43 ∧ byteAt r 0 = e.id % 256 ∧
    (r.drop 1).take 8 = e.name ++ List.replicate (8 - e.name.length) 0 ∧
    byteAt r 9 < 16 ∧ (∀ b, (byteAt r 9).testBit (barNumber b) = (e.bars.get b).isSome) ∧
    byteAt r 10 = (if e.ended then 1 else 0) := by
  have hlens := checkFields_lengths e
  have hset : byteAt (checkRecord base e) 9 = (barSetByte e.barSet).toNat := by
    rw [checkRecord_eq]
    exact byteAt_field (field := [barSetByte e.barSet]) _ 2 rfl (sum_take_lengths hlens 2 rfl) (k := 0) Nat.one_pos
  refine ⟨checkRecord_length base e, ?_, ?_, ?_, fun b => ?_, ?_⟩
  · rw [checkRecord_eq]
    exact byteAt_be8 hlens _ 0 rfl rfl
  · rw [checkRecord_eq, CheckRec.checkFields, ← nameField_of_length_le hname]
    simp only [List.flatten_cons, List.cons_append, List.nil_append, List.drop_succ_cons, List.drop_zero, List.append_assoc]
    exact List.take_left' (nameField_length _)
  · rw [hset]
    exact barSetByte_lt _
  · rw [hset, barSetByte_testBit, CheckRec.barSet, PerBar.get_map]
  · rw [checkRecord_eq]
    refine (byteAt_field (field := [be8 (bitsToNat [e.ended])]) _ 3 rfl (sum_take_lengths hlens 3 rfl) (k := 0)
      Nat.one_pos).trans ?_
    exact toNat_be8_flag e.ended

theorem checkRecords_length (base : Nat) (es : List CheckRec) : (checkRecords base es).length = 43 * es.length := by
  induction es generalizing base with
  | nil => rfl
  | cons e es ih =>
    rw [checkRecords, List.length_append, checkRecord_length, ih, List.length_cons]
    omega

theorem checkRecords_block (base : Nat) (es : List CheckRec) (i : Nat) {e : CheckRec} (h : es[i]? = some e) :
    ((checkRecords base es).drop (43 * i)).take 43 = checkRecord (base + 4 * i) e := by
  induction es generalizing base i with
  | nil => simp at h
  | cons r es ih =>
    cases i with
    | zero =>
      obtain rfl : r = e := by simpa using h
      exact List.take_left' (checkRecord_length base r)
    | succ i =>
      rw [checkRecords, Nat.mul_add, Nat.mul_one, Nat.add_comm, ← List.drop_drop, List.drop_left' (checkRecord_length base r),
        ih (base + 4) i (by simpa using h)]
      congr 1
      omega

/-! ### A bar's block (R161, R166, R180) -/

/-- The byte of a play's source. -/
def sourceByte : PlaySource → Byte
  | .page => 0
  | .check => 1

/-- The fields of a bar's block for its play. -/
def playFields (play : Option GapPlay) (free : Line) : List (List Byte) :=
  match play with
  | some g => [[1], [sourceByte g.source], nameField (some g.name), be16 g.next]
  | none => [[0], [0], nameField none, be16 free.toNat]

/-- The fields of a bar's block for its slot. -/
def slotFields : Option CheckSlot → List (List Byte)
  | none => [[0], [0]]
  | some (.waiting id) => [[1], [be8 id]]
  | some (.playing id _) => [[2], [be8 id]]

theorem barBlock_eq (free : Line) (x : Bar) :
    barBlock free x = (playFields x.gapPlay free ++ slotFields x.checkSlot).flatten ++ [] := by
  have hplay : (match x.gapPlay with
      | some g => [1, match g.source with | .page => (0 : Byte) | .check => 1] ++ nameField (some g.name) ++ be16 g.next
      | none => [0, 0] ++ nameField none ++ be16 free.toNat) = (playFields x.gapPlay free).flatten := by
    cases hx : x.gapPlay with
    | none => simp [playFields]
    | some g => cases hs : g.source <;> simp [playFields, sourceByte, hs]
  have hslot : (match x.checkSlot with
      | none => [0, 0]
      | some (.waiting id) => [1, be8 id]
      | some (.playing id _) => [2, be8 id]) = (slotFields x.checkSlot).flatten := by
    rcases x.checkSlot with _ | ⟨_⟩ | ⟨_, _⟩ <;> rfl
  rw [List.append_nil, List.flatten_append, ← hplay, ← hslot]
  rfl

theorem blockFields_lengths (play : Option GapPlay) (slot : Option CheckSlot) (free : Line) :
    (playFields play free ++ slotFields slot).map List.length = [1, 1, 8, 2, 1, 1] := by
  cases play <;> rcases slot with _ | ⟨_⟩ | ⟨_, _⟩ <;> simp [playFields, slotFields, nameField_length]

theorem barBlock_spec (w : Line) (x : Bar) :
    let r := barBlock w x
    r.length = 14 ∧
    (x.gapPlay = none → byteAt r 0 = 0 ∧ byteAt r 1 = 0 ∧ (r.drop 2).take 8 = List.replicate 8 0) ∧
    (∀ g, x.gapPlay = some g → g.name.length ≤ 8 → byteAt r 0 = 1 ∧
      byteAt r 1 = (match g.source with | .page => 0 | .check => 1) ∧
      (r.drop 2).take 8 = g.name ++ List.replicate (8 - g.name.length) 0 ∧ wordAt r 10 = g.next % 65536) ∧
    (x.checkSlot = none → byteAt r 12 = 0 ∧ byteAt r 13 = 0) ∧
    (∀ id, x.checkSlot = some (.waiting id) → byteAt r 12 = 1 ∧ byteAt r 13 = id % 256) ∧
    ∀ id n, x.checkSlot = some (.playing id n) → byteAt r 12 = 2 ∧ byteAt r 13 = id % 256 := by
  have hlens := blockFields_lengths x.gapPlay x.checkSlot w
  have hbyte {y : Byte} {i : Nat} (j : Nat) (hj : (playFields x.gapPlay w ++ slotFields x.checkSlot)[j]? = some [y])
      (hi : (([1, 1, 8, 2, 1, 1] : List Nat).take j).sum = i) : byteAt (barBlock w x) i = y.toNat := by
    rw [barBlock_eq]
    exact byteAt_field [] j hj (sum_take_lengths hlens j hi) (k := 0) Nat.one_pos
  have hname {a b : Byte} {n : Option Name} {q : List (List Byte)} (h : playFields x.gapPlay w = [a] :: [b] :: nameField n :: q) :
      ((barBlock w x).drop 2).take 8 = nameField n := by
    rw [barBlock_eq, h]
    simp only [List.cons_append, List.flatten_cons, List.nil_append, List.drop_succ_cons, List.drop_zero, List.append_assoc]
    exact List.take_left' (nameField_length n)
  have hslot {fs : List (List Byte)} (h : slotFields x.checkSlot = fs) (j : Nat) :
      (playFields x.gapPlay w ++ slotFields x.checkSlot)[4 + j]? = fs[j]? := by
    have hplay : (playFields x.gapPlay w).length = 4 := by cases x.gapPlay <;> rfl
    rw [h, List.getElem?_append_right (by omega), hplay, Nat.add_sub_cancel_left]
  refine ⟨?_, fun h => ?_, fun g h hlen => ?_, fun h => ?_, fun id h => ?_, fun id n h => ?_⟩
  · rw [barBlock_eq, List.append_nil, List.length_flatten, hlens]
    rfl
  · have hplay : playFields x.gapPlay w = [[0], [0], nameField none, be16 w.toNat] := by rw [h]; rfl
    exact ⟨hbyte (y := 0) 0 (by rw [hplay]; rfl) rfl, hbyte (y := 0) 1 (by rw [hplay]; rfl) rfl, hname hplay⟩
  · have hplay : playFields x.gapPlay w = [[1], [sourceByte g.source], nameField (some g.name), be16 g.next] := by
      rw [h]; rfl
    refine ⟨hbyte (y := 1) 0 (by rw [hplay]; rfl) rfl,
      (hbyte (y := sourceByte g.source) 1 (by rw [hplay]; rfl) rfl).trans ?_, ?_, ?_⟩
    · cases g.source <;> rfl
    · rw [hname hplay, nameField_of_length_le hlen]
    · rw [barBlock_eq]
      exact wordAt_be16 hlens [] 3 (by rw [hplay]; rfl) rfl
  · have hs := hslot (congrArg slotFields h)
    exact ⟨hbyte (y := 0) 4 (hs 0) rfl, hbyte (y := 0) 5 (hs 1) rfl⟩
  · have hs := hslot (congrArg slotFields h)
    exact ⟨hbyte (y := 1) 4 (hs 0) rfl, (hbyte 5 (hs 1) rfl).trans (toNat_be8 id)⟩
  · have hs := hslot (congrArg slotFields h)
    exact ⟨hbyte (y := 2) 4 (hs 0) rfl, (hbyte 5 (hs 1) rfl).trans (toNat_be8 id)⟩

/-! ### PTLIST (R169) -/

theorem ptlist_of_nil (s : State) (l : LinkId) (tag : Byte) {p : List Byte} (h : p = []) :
    s.ptlist l tag p = (s.setFresh (s.fresh + 4 + 4 * s.library.checks.length)).reply l tag .ok
      (be16 (freeRows s.library.directory) ++ be16 (largestRun s.library.directory) ++
        be8 s.library.directory.length :: s.library.directory.flatMap directoryEntry ++
        barIds.flatMap (fun b => barBlock (Config.freeWord (s.fresh + barNumber b)) (s.bar b)) ++
        be8 s.library.checks.length :: checkRecords (s.fresh + 4) s.library.checks) :=
  if_neg (not_not.2 h)

/-- Settles O51: PTLIST's reply, and the layout of each of its blocks. -/
theorem ptlistReadsTheLibrary : Obligations.PtlistReadsTheLibrary := by
  refine ⟨fun s tag p hl => ?_, directoryEntry_spec, fun base e hname => ?_, fun base es _ =>
    ⟨checkRecords_length base es, fun i e h => checkRecords_block base es i h⟩, barBlock_spec⟩
  · intro c dir
    have hc := exec_of_listens (c := c) (act := State.ptlist) hl rfl rfl rfl
    refine checked_cons_of_refuse hl hc (fun hp => if_pos hp) fun hp => ?_
    have ha := ptlist_of_nil (s.idleAssembler .service) .service tag (not_not.1 hp)
    refine ⟨largestRun dir, fun n => Config.freeWord (s.fresh + n), ?_, largestRun_spec⟩
    exact exec_of_act hc ha (reply_outputsFollow _ _ _ _ (idleAssembler_outputsFollow s .service hl.2)) rfl
  · obtain ⟨hlen, hid, hnamed, hbound, hset, hended⟩ := checkRecord_spec base e hname
    refine ⟨hlen, hid, hnamed, hbound, hset, hended, fun b => ?_⟩
    intro block
    have hblock : block = checkBarBlock base e b := checkRecord_block base e b
    refine ⟨fun hnone => ?_, fun x hx => ?_⟩
    · rw [hblock, checkBarBlock, hnone]
    · have hsome : block = checkBlock (Config.freeWord (base + barNumber b)) x := by rw [hblock, checkBarBlock, hx]
      rw [hsome]
      exact checkBlock_spec _ x

end Sys2Proof.Machine
end

section
/-! CHKPRINT. -/

namespace Sys2Proof.Machine

/-! ### The check list (R166) -/

theorem dropEnded_of_first {older younger : List CheckRec} {r : CheckRec} (hr : r.ended = true)
    (ho : ∀ o ∈ older, o.ended = false) : dropEnded (older ++ r :: younger) = older ++ younger := by
  induction older with
  | nil => exact if_pos hr
  | cons o older ih =>
    obtain ⟨hfirst, hrest⟩ := List.forall_mem_cons.1 ho
    rw [List.cons_append, dropEnded, hfirst, ih hrest]
    rfl

theorem trimChecks_of_le {rs : List CheckRec} (h : rs.length ≤ 4) : trimChecks rs = rs :=
  if_neg (by simp only [Config.checkCapacity]; omega)

theorem trimChecks_of_lt {rs : List CheckRec} (h : 4 < rs.length) : trimChecks rs = dropEnded rs := if_pos h

theorem nextCheckId_eq (n : Nat) : nextCheckId n = if n < 255 then n + 1 else 1 := by
  unfold nextCheckId
  by_cases h : n < 255
  · rw [if_pos h, if_neg (by omega)]
  · rw [if_neg h, if_pos (by omega)]

/-! ### CHKPRINT (R167) -/

theorem chkprint_of_badLength (s : State) (l : LinkId) (tag : Byte) : ∀ {p : List Byte},
    p.length < 3 ∨ 10 < p.length → s.chkprint l tag p = s.refuse l tag .badLength
  | [], _ => rfl
  | [_], _ => rfl
  | _ :: _ :: name, h => by
    have hname : name = [] ∨ 8 < name.length := by
      simp only [List.length_cons] at h
      rw [← List.length_eq_zero_iff]
      omega
    exact if_pos hname

/-- CHKPRINT of a pattern that is there (R167). -/
def State.printCheck (s : State) (l : LinkId) (tag : Byte) (name : Name) (bars : PerBar Bool) (wait : Prop)
    [Decidable wait] (e : Pattern) : State :=
  if !e.ready then s.refuse l tag .notFound
  else if e.kind = .spit then s.refuse l tag .badField
  else if barIds.any fun b => bars.get b && (s.bar b).checkSlot.isSome then s.refuse l tag .wrongState
  else if wait then
    (s.openCheck name bars).setBusy l (some (.waiting tag (.chkprint (nextCheckId s.library.checkCount) bars)))
  else (s.openCheck name bars).reply l tag .ok [be8 (nextCheckId s.library.checkCount)]

/-- The bars that a bar set number names (R180). -/
def namedBars (set : Nat) : PerBar Bool := .ofFn fun b => set.testBit (barNumber b)

theorem namedBars_get (set : Nat) (b : BarId) : (namedBars set).get b = set.testBit (barNumber b) := by
  cases b <;> rfl

theorem chkprint_of_length (s : State) (l : LinkId) (tag : Byte) : ∀ {p : List Byte}, ¬(p.length < 3 ∨ 10 < p.length) →
    s.chkprint l tag p =
      if 1 < byteAt p 0 ∨ byteAt p 1 = 0 ∨ 15 < byteAt p 1 then s.refuse l tag .badField
      else if !(p.drop 2).all nameChar then s.refuse l tag .badField
      else if !s.barsEnabled (namedBars (byteAt p 1)) then s.refuse l tag .badField
      else (s.pattern (p.drop 2)).elim (s.refuse l tag .notFound)
        (s.printCheck l tag (p.drop 2) (namedBars (byteAt p 1)) (byteAt p 0 = 1))
  | [], h => absurd (Or.inl (by simp)) h
  | [_], h => absurd (Or.inl (by simp)) h
  | mode :: set :: name, h => by
    have hname : ¬(name = [] ∨ 8 < name.length) := by
      simp only [List.length_cons] at h
      rw [← List.length_eq_zero_iff]
      omega
    have hdrop : (mode :: set :: name).drop 2 = name := rfl
    have hmode : byteAt (mode :: set :: name) 0 = mode.toNat := rfl
    have hset : byteAt (mode :: set :: name) 1 = set.toNat := rfl
    have hbars : barSetOf set = namedBars set.toNat := rfl
    rw [State.chkprint, if_neg hname, hdrop, hmode, hset, hbars]
    by_cases hm : 1 < mode.toNat
    · rw [replyMode_of_lt hm, if_pos (Or.inl hm)]
    · rw [replyMode_of_le hm]
      refine if_congr (by simp [hm]; omega) rfl (if_congr Iff.rfl rfl (if_congr Iff.rfl rfl ?_))
      cases s.pattern name with
      | none => rfl
      | some e => simp only [Option.elim_some, State.printCheck, decide_eq_true_eq]

theorem not_namedEnabled_iff {s : State} {set : Nat} :
    (!s.barsEnabled (namedBars set)) = true ↔ ∃ b, NamesBar set b ∧ (s.bar b).enabled = false := by
  simp [State.barsEnabled, namedBars_get, NamesBar, mem_barIds]

theorem namedSlotTaken_iff {s : State} {set : Nat} :
    (barIds.any fun b => (namedBars set).get b && (s.bar b).checkSlot.isSome) = true ↔
      ∃ b, NamesBar set b ∧ (s.bar b).checkSlot ≠ none := by
  simp [namedBars_get, NamesBar, mem_barIds, Option.isSome_iff_ne_none]

theorem openCheck_eq (s : State) (name : Name) (set : Nat) :
    s.openCheck name (namedBars set) =
      (let id := if s.library.checkCount < 255 then s.library.checkCount + 1 else 1
      (s.setLibrary
        { s.library with
          checkCount := id
          checks := trimChecks (s.library.checks ++
            [{ id := id, name := name, ended := false
               bars := .ofFn fun b => if set.testBit (barNumber b) then some ⟨.waiting, none, 0⟩ else none }]) }).setBars
        (.ofFn fun b =>
          if set.testBit (barNumber b) then { s.bar b with checkSlot := some (.waiting id) } else s.bar b)) := by
  simp only [State.openCheck, nextCheckId_eq, namedBars_get]
  rfl

/-- Settles O52: CHKPRINT's checks in order, the record it opens, and the slots it fills. -/
theorem chkprintOpensACheck : Obligations.ChkprintOpensACheck := by
  intro s tag p hl c set name id fresh list
  have hc := exec_of_listens (c := c) (act := State.chkprint) hl rfl rfl rfl
  refine checked_cons_of_refuse hl hc (chkprint_of_badLength _ _ _) fun hlen => ?_
  have ha := chkprint_of_length (s.idleAssembler .service) .service tag hlen
  refine checked_cons hl hc Iff.rfl ha fun _ ha => ?_
  refine checked_cons hl hc not_all_nameChar_iff.symm ha fun _ ha => ?_
  refine checked_cons hl hc not_namedEnabled_iff.symm ha fun _ ha => ?_
  have hpattern : (s.idleAssembler .service).pattern name = s.pattern name := rfl
  refine checked_cons_of_refuse hl hc (fun hno => ?_) fun hready => ?_
  · cases hx : s.pattern name with
    | none =>
      rw [ha, hpattern, hx]
      rfl
    | some e =>
      rw [ha, hpattern, hx, Option.elim_some, State.printCheck, if_pos]
      simp only [hx, Option.some.injEq, exists_eq_left', Bool.not_eq_true] at hno
      simp [hno]
  obtain ⟨e, he, hready⟩ := not_not.1 hready
  rw [hpattern, he, Option.elim_some, State.printCheck, if_neg (by simp [hready])] at ha
  refine checked_cons hl hc (by simp [he]) ha fun _ ha => ?_
  refine checked_cons hl hc namedSlotTaken_iff.symm ha fun _ ha => ?_
  refine ⟨trimChecks list, trimChecks_of_le, fun hlong older r younger hlist hended holder => ?_, ?_⟩
  · rw [trimChecks_of_lt hlong, hlist, dropEnded_of_first hended holder]
  intro t
  have hopen : (s.idleAssembler .service).openCheck name (namedBars set) = t := openCheck_eq _ name set
  have hid : nextCheckId (s.idleAssembler .service).library.checkCount = id := nextCheckId_eq _
  rw [hopen, hid] at ha
  have hout : t.outputsFollow :=
    (KeepsOutputs.of_eq (s := s.idleAssembler .service) (t := t) rfl rfl rfl rfl rfl rfl).outputsFollow
      (idleAssembler_outputsFollow s .service hl.2)
  refine ⟨fun hwait => ?_, fun hpost => ?_⟩
  · exact exec_of_act hc (ha.trans (if_pos hwait)) (setBusy_outputsFollow _ _ hout) rfl
  · exact exec_of_act hc (ha.trans (if_neg (by omega))) (reply_outputsFollow _ _ _ _ hout) rfl

end Sys2Proof.Machine
end

section
/-! PRRESET. -/

namespace Sys2Proof.Machine

/-! ### Taking PRRESET (R173, R174) -/

theorem turnedAway_prreset {s : State} {tag : Byte} (ht : tag ≠ 0)
    (hb : (s.link .service).busy = none ∨ ∃ t op, (s.link .service).busy = some (.waiting t op)) :
    s.turnedAway .service tag 33 = none := by
  have hblocks : blocks 33 (s.link .service).busy = false := by
    rcases hb with hb | ⟨t, op, hb⟩ <;> rw [hb] <;> rfl
  have hn : definedNumber 33 = true := rfl
  have hp : permitted 33 .service = true := rfl
  rw [State.turnedAway, if_neg ht]
  simp [hn, hp, hblocks]

/-- PRRESET under a tag is its act, where the Service link has nothing or a waiting request in progress. -/
theorem exec_prreset_of_quiet {s : State} {tag : Byte} (p : List Byte) (hq : s.quiet = true) (ht : tag ≠ 0)
    (hb : (s.link .service).busy = none ∨ ∃ t op, (s.link .service).busy = some (.waiting t op)) :
    exec (.prreset .service tag p) s = .next (s.taken .service fun u => u.prreset .service tag p) := by
  have hc : exec (.prreset .service tag p) s = .next (s.request .service tag 33 State.prreset p) := rfl
  rw [hc, request_of_quiet s .service tag 33 State.prreset p hq]
  refine congrArg Host.Outcome.next (event_congr ?_)
  have hbusy : ((s.idleAssembler .service).link .service).busy = (s.link .service).busy := idleAssembler_busy ..
  rw [State.take, turnedAway_prreset ht (hbusy.symm ▸ hb)]

/-! ### The requests it aborts (R12, R178) -/

/-- The waiting request of the Service link replies ABORTED. -/
def State.abortWait (s : State) : State :=
  match (s.link .service).busy with
  | some (.waiting tag _) => (s.setBusy .service none).reply .service tag .aborted []
  | _ => s

/-- The ROWPUT of the Image link replies ABORTED. -/
def State.abortWrite (s : State) : State :=
  match (s.link .image).busy with
  | some (.rowput tag ..) => (s.setBusy .image none).reply .image tag .aborted []
  | _ => s

theorem abortRequests_eq (s : State) : s.abortRequests = s.abortWait.abortWrite := rfl

/-- The request of the Service link that a Press Reset aborts, by what is in progress there. -/
def abortedWait : Option InProgress → List Sent
  | some (.waiting t _) => [.reply .service t .aborted []]
  | _ => []

/-- The write that a Press Reset aborts, by what is in progress on the Image link. -/
def abortedWrite : Option InProgress → List Sent
  | some (.rowput t ..) => [.reply .image t .aborted []]
  | _ => []

theorem abortWait_eq (s : State) :
    s.abortWait = (s.setLinks s.abortWait.links).setSent (s.sent ++ abortedWait (s.link .service).busy) := by
  unfold State.abortWait abortedWait
  rcases (s.link .service).busy with _ | ⟨_ | _ | _⟩ <;>
    simp only [List.append_nil] <;> rfl

theorem abortWrite_eq (s : State) :
    s.abortWrite = (s.setLinks s.abortWrite.links).setSent (s.sent ++ abortedWrite (s.link .image).busy) := by
  unfold State.abortWrite abortedWrite
  rcases (s.link .image).busy with _ | ⟨_ | _ | _⟩ <;>
    simp only [List.append_nil] <;> rfl

theorem abortWait_link (s : State) (l : LinkId) :
    s.abortWait.link l = { s.link l with busy := (s.abortWait.link l).busy } := by
  unfold State.abortWait
  split
  · cases l <;> rfl
  · rfl

theorem abortWrite_link (s : State) (l : LinkId) :
    s.abortWrite.link l = { s.link l with busy := (s.abortWrite.link l).busy } := by
  unfold State.abortWrite
  split
  · cases l <;> rfl
  · rfl

theorem abortWait_image (s : State) : s.abortWait.link .image = s.link .image := by
  unfold State.abortWait
  split <;> rfl

theorem abortWrite_service (s : State) : s.abortWrite.link .service = s.link .service := by
  unfold State.abortWrite
  split <;> rfl

theorem abortRequests_link (s : State) (l : LinkId) :
    s.abortRequests.link l = { s.link l with busy := (s.abortRequests.link l).busy } := by
  rw [abortRequests_eq, abortWrite_link, abortWait_link]

theorem abortRequests_sent (s : State) :
    s.abortRequests.sent = s.sent ++ abortedWait (s.link .service).busy ++ abortedWrite (s.link .image).busy := by
  rw [abortRequests_eq, abortWrite_eq, abortWait_image, abortWait_eq]
  rfl

theorem abortRequests_frame (s : State) :
    s.abortRequests = (s.setLinks s.abortRequests.links).setSent s.abortRequests.sent := by
  have hwrite := abortWrite_eq s.abortWait
  rw [← abortRequests_eq] at hwrite
  rw [hwrite, abortWait_eq]
  rfl

theorem abortRequests_service {s : State}
    (hb : (s.link .service).busy = none ∨ ∃ t op, (s.link .service).busy = some (.waiting t op)) :
    (s.abortRequests.link .service).busy = none := by
  rw [abortRequests_eq, abortWrite_service]
  unfold State.abortWait
  rcases hb with hb | ⟨t, op, hb⟩
  · rw [hb]
    exact hb
  · rw [hb]
    rfl

theorem abortRequests_image (s : State) (tg : Byte) (pg row : Nat) (b : BarId) (x : PlanePart) :
    (s.abortRequests.link .image).busy ≠ some (.rowput tg pg row b x) := by
  rw [abortRequests_eq]
  unfold State.abortWrite
  split
  · exact fun h => nomatch h
  next hother => exact fun h => hother tg pg row b x h

/-! ### The lanes (R92, R116, R156) -/

theorem presenceKnown_eq_false_iff {x : Option Probe} : presenceKnown x = false ↔ x = some (.plain false) := by
  rcases x with _ | ⟨_ | _⟩ | _ <;> simp [presenceKnown]

/-! ### The Press Reset -/

theorem pressReset_sent (s : State) : s.pressReset.sent = s.abortRequests.sent ++ powerOnIdentifies := rfl

theorem pressReset_link (s : State) (l : LinkId) :
    s.pressReset.link l =
      { s.abortRequests.link l with
        assembler := if l = .service then (s.abortRequests.link l).assembler else .idle
        flags := (s.abortRequests.link l).flags ||| flagBit l .reset } := by
  cases l <;> rfl

/-- A link after a Press Reset that came on the Service link. -/
theorem pressReset_idle_link (s : State) (l : LinkId) :
    (s.idleAssembler .service).pressReset.link l =
      { s.link l with
        assembler := .idle
        busy := ((s.idleAssembler .service).abortRequests.link l).busy
        flags := (s.link l).flags ||| flagBit l .reset } := by
  rw [pressReset_link, abortRequests_link]
  cases l <;> rfl

section Fields

variable (s : State)

theorem abortRequests_ring : s.abortRequests.ring = s.ring := (congrArg State.ring (abortRequests_frame s)).trans rfl
theorem abortRequests_queue : s.abortRequests.queue = s.queue := (congrArg State.queue (abortRequests_frame s)).trans rfl
theorem abortRequests_position : s.abortRequests.position = s.position :=
  (congrArg State.position (abortRequests_frame s)).trans rfl
theorem abortRequests_bars : s.abortRequests.bars = s.bars := (congrArg State.bars (abortRequests_frame s)).trans rfl
theorem abortRequests_lanes : s.abortRequests.lanes = s.lanes := (congrArg State.lanes (abortRequests_frame s)).trans rfl
theorem abortRequests_lists : s.abortRequests.lists = s.lists := (congrArg State.lists (abortRequests_frame s)).trans rfl
theorem abortRequests_library : s.abortRequests.library = s.library :=
  (congrArg State.library (abortRequests_frame s)).trans rfl

theorem pressReset_ring : s.pressReset.ring = { s.ring with rows := [], store := s.ring.store.pressReset } :=
  congrArg (fun r : Ring => ({ r with rows := [], store := r.store.pressReset } : Ring)) (abortRequests_ring s)

theorem pressReset_queue : s.pressReset.queue = { s.queue with pages := [], suppress := false } :=
  congrArg (fun q : Queue => ({ q with pages := [], suppress := false } : Queue)) (abortRequests_queue s)

theorem pressReset_position : s.pressReset.position = { s.position with lastTrigger := none, lastRows := 0 } :=
  congrArg (fun x : Position => ({ x with lastTrigger := none, lastRows := 0 } : Position)) (abortRequests_position s)

theorem pressReset_bar (b : BarId) : s.pressReset.bar b = (s.bar b).pressReset :=
  (congrArg (fun x : PerBar Bar => (x.map Bar.pressReset).get b) (abortRequests_bars s)).trans (PerBar.get_map _ _ b)

theorem pressReset_lane (h : LaneId) : s.pressReset.lane h = (s.lane h).pressReset :=
  (congrArg (fun x : PerLane Lane => (x.map Lane.pressReset).get h) (abortRequests_lanes s)).trans
    (PerLane.get_map _ _ h)

theorem pressReset_lists : s.pressReset.lists = { s.lists with pending := [], transition := none } :=
  congrArg (fun x : NozzleLists => ({ x with pending := [], transition := none } : NozzleLists)) (abortRequests_lists s)

theorem pressReset_library :
    s.pressReset.library = { s.library with checks := s.library.checks.filter (·.ended) } :=
  congrArg (fun x : Library => ({ x with checks := x.checks.filter (·.ended) } : Library)) (abortRequests_library s)

end Fields

theorem pressReset_readyCondition (s : State) : s.pressReset.readyCondition = false := rfl

theorem reply_readyCondition (s : State) (l : LinkId) (tag : Byte) (st : Status) (p : List Byte) :
    (s.reply l tag st p).readyCondition = s.readyCondition := readyCondition_congr _ _ rfl rfl rfl

/-- The state after a PRRESET. -/
def State.prresetDone (s : State) (tag : Byte) : State :=
  event (fun _ => (s.idleAssembler .service).pressReset.reply .service tag .ok []) s

section Done

variable (s : State) (tag : Byte)

theorem prresetDone_frame :
    s.prresetDone tag =
      (let x := (s.idleAssembler .service).pressReset.reply .service tag .ok []
      (x.setQueue { x.queue with ready := (s.prresetDone tag).queue.ready }).setLinks (s.prresetDone tag).links) :=
  event_frame _ s

theorem prresetDone_ready : (s.prresetDone tag).queue.ready = false := event_ready _ s

theorem prresetDone_ring : (s.prresetDone tag).ring = { s.ring with rows := [], store := s.ring.store.pressReset } :=
  (congrArg State.ring (prresetDone_frame s tag)).trans (pressReset_ring (s.idleAssembler .service))

theorem prresetDone_queue : (s.prresetDone tag).queue =
    { pages := [], suppress := false, readyMargin := s.queue.readyMargin, ready := false } := by
  have hq : (s.prresetDone tag).queue =
      { (s.idleAssembler .service).pressReset.queue with ready := (s.prresetDone tag).queue.ready } :=
    (congrArg State.queue (prresetDone_frame s tag)).trans rfl
  rw [hq, prresetDone_ready, pressReset_queue]
  rfl

theorem prresetDone_position : (s.prresetDone tag).position = { s.position with lastTrigger := none, lastRows := 0 } :=
  (congrArg State.position (prresetDone_frame s tag)).trans (pressReset_position (s.idleAssembler .service))

theorem prresetDone_bar (b : BarId) : (s.prresetDone tag).bar b = (s.bar b).pressReset :=
  (congrArg (fun v : State => v.bar b) (prresetDone_frame s tag)).trans (pressReset_bar (s.idleAssembler .service) b)

theorem prresetDone_lane (h : LaneId) : (s.prresetDone tag).lane h = (s.lane h).pressReset :=
  (congrArg (fun v : State => v.lane h) (prresetDone_frame s tag)).trans (pressReset_lane (s.idleAssembler .service) h)

theorem prresetDone_lists : (s.prresetDone tag).lists = { s.lists with pending := [], transition := none } :=
  (congrArg State.lists (prresetDone_frame s tag)).trans (pressReset_lists (s.idleAssembler .service))

theorem prresetDone_library :
    (s.prresetDone tag).library = { s.library with checks := s.library.checks.filter (·.ended) } :=
  (congrArg State.library (prresetDone_frame s tag)).trans (pressReset_library (s.idleAssembler .service))

theorem prresetDone_sent :
    (s.prresetDone tag).sent = s.sent ++ abortedWait (s.link .service).busy ++ abortedWrite (s.link .image).busy ++
      powerOnIdentifies ++ [.reply .service tag .ok []] := by
  have hsent : (s.prresetDone tag).sent = (s.idleAssembler .service).abortRequests.sent ++ powerOnIdentifies ++
      [.reply .service tag .ok []] := congrArg State.sent (prresetDone_frame s tag)
  rw [hsent, abortRequests_sent, idleAssembler_busy, idleAssembler_busy]
  rfl

/-- A link after a PRRESET: ROOM by the slots that come free, READY by what stood. -/
theorem prresetDone_link (l : LinkId) :
    (s.prresetDone tag).link l =
      { s.link l with
        assembler := .idle
        busy := ((s.idleAssembler .service).abortRequests.link l).busy
        flags := (s.link l).flags ||| flagBit l .reset |||
          (if s.freeSlots < s.ring.roomMark ∧ s.ring.roomMark ≤ 2048 ∧ l = .image then 0x0008 else 0) |||
          (if s.queue.ready ∧ l = .motion then 0x0001 else 0)
        attn := ((s.prresetDone tag).link l).attn } := by
  have hring := pressReset_ring (s.idleAssembler .service)
  have hqueue := pressReset_queue (s.idleAssembler .service)
  have hfree : ((s.idleAssembler .service).pressReset.reply .service tag .ok []).freeSlots = 2048 := by
    rw [State.freeSlots, reply_ring, hring]
    rfl
  rw [State.prresetDone, event_link, reply_readyCondition, pressReset_readyCondition, hfree, reply_ring, hring,
    State.link, reply_links, ← State.link, pressReset_idle_link, reply_queue, hqueue]
  simp only [ne_eq, Bool.not_eq_false]
  rfl

end Done

theorem pressReset_lane_eq (ln : Lane) : ln.pressReset =
    { ln with
      head := if ln.head = .absent then .absent else .off
      probe := some (.plain (presenceKnown ln.probe))
      exchange := some .identify
      identifies := ln.identifies + 1
      warmTimer := none, settleTimer := none, retryTimer := false, slewTimer := none
      park := none, fire := none, fireOpen := false, load := none, noReply := 0, check := 0
      drive := 0, retries := 0
      nozzles := ln.nozzles.map fun x => { x with acc := 0, idle := 0 } } := rfl

theorem storePressReset_of_ne {x : StoreAccess} (h : x ≠ .write) : x.pressReset = x := by
  cases x with
  | write => exact absurd rfl h
  | free => rfl
  | read g => rfl

/-- Settles O54: the Press Reset of every block, the ABORTED replies, and its own. -/
theorem prresetClearsThePrintingState : Obligations.PrresetClearsThePrintingState := by
  intro s tag p hq ho ht hb c abortedWaiting abortedWriting
  have hc := exec_prreset_of_quiet p hq ht hb
  refine ⟨fun hp => ?_, fun hp => ?_⟩
  · rw [Refuses, hc, ← taken_reply s .service tag .badLength [] ho]
    exact congrArg Host.Outcome.next (event_congr (if_pos hp))
  have hring := prresetDone_ring s tag
  have hlink := prresetDone_link s tag
  refine ⟨s.prresetDone tag, hc.trans (congrArg Host.Outcome.next (event_congr (if_neg hp))), (congrArg Ring.rows hring).trans rfl,
    (congrArg Ring.roomMark hring).trans rfl, fun hw => ?_, fun hw => ?_, prresetDone_queue s tag,
    prresetDone_position s tag, prresetDone_bar s tag, fun h => ?_, prresetDone_lists s tag, prresetDone_library s tag,
    fun l => ?_, ?_, fun tg pg row b y => ?_, ?_, ?_, ?_, ?_⟩
  · rw [hring, hw]
    rfl
  · rw [hring]
    exact storePressReset_of_ne hw
  · rw [prresetDone_lane, pressReset_lane_eq]
    exact ⟨_, rfl, presenceKnown_eq_false_iff, rfl⟩
  · rw [hlink]
    exact ⟨rfl, rfl, rfl, rfl⟩
  · rw [hlink]
    exact abortRequests_service (by rw [idleAssembler_busy]; exact hb)
  · rw [hlink]
    exact abortRequests_image _ tg pg row b y
  · rw [hlink]
    simp [flagBit]
  · rw [hlink]
    simp [flagBit]
  · rw [hlink]
    simp [flagBit]
  · exact prresetDone_sent s tag

end Sys2Proof.Machine
end

section
/-! SUPPORT. When the slots and the overlaps of a geometry fit (R65, R66 check 3). -/

namespace Sys2Proof.Machine

/-! ### Counting the slots of a bar -/

/-- Numbers that a set of n things takes, with none missing below n, are taken once each and all below n. -/
theorem injOn_of_range_subset {α : Type} [DecidableEq α] {A : Finset α} {f : α → Nat}
    (h : ∀ k, k < A.card → ∃ a ∈ A, f a = k) : Set.InjOn f A ∧ ∀ a ∈ A, f a < A.card := by
  have hsub : Finset.range A.card ⊆ A.image f := fun k hk =>
    Finset.mem_image.2 (h k (Finset.mem_range.1 hk))
  have hle : (A.image f).card ≤ (Finset.range A.card).card := by
    rw [Finset.card_range]
    exact Finset.card_image_le
  have heq := Finset.eq_of_subset_of_card_le hsub hle
  refine ⟨Finset.card_image_iff.1 (by rw [← heq, Finset.card_range]), fun a ha => ?_⟩
  exact Finset.mem_range.1 (heq ▸ Finset.mem_image_of_mem f ha)

/-- Numbers taken once each and without holes below any of them are the first ones. -/
theorem range_subset_of_injOn {α : Type} [DecidableEq α] {A : Finset α} {f : α → Nat} (hinj : Set.InjOn f A)
    (hdown : ∀ a ∈ A, ∀ k, k < f a → ∃ b ∈ A, f b = k) : ∀ k, k < A.card → ∃ a ∈ A, f a = k := by
  intro k hk
  by_contra hno
  push Not at hno
  have hsub : A.image f ⊆ Finset.range k := by
    intro m hm
    obtain ⟨a, ha, rfl⟩ := Finset.mem_image.1 hm
    refine Finset.mem_range.2 (lt_of_not_ge fun hle => ?_)
    rcases Nat.lt_or_eq_of_le hle with hlt | heq
    · obtain ⟨b, hb, hfb⟩ := hdown a ha k hlt
      exact hno b hb hfb
    · exact hno a ha heq.symm
  have hcard := Finset.card_le_card hsub
  rw [Finset.card_range, Finset.card_image_iff.2 hinj] at hcard
  omega

/-! ### The lanes of a bar -/

section Bar

variable (asg : PerLane (Option Assign)) (b : BarId)

/-- Whether a lane is assigned to a bar. -/
def onBarIn (h : LaneId) : Bool :=
  match asg.get h with
  | some a => a.bar == b
  | none => false

/-- The lanes assigned to a bar. -/
def lanesAt : Finset LaneId := laneIds.toFinset.filter fun h => onBarIn asg b h = true

/-- The slot of a lane, where it has one. -/
def slotOf (h : LaneId) : Nat := ((asg.get h).map Assign.slot).getD 0

theorem lanesAt_card : (lanesAt asg b).card = laneCount asg b := by
  have hnodup : (laneIds.filter (onBarIn asg b)).Nodup := List.Nodup.filter _ (by decide)
  have hset : lanesAt asg b = (laneIds.filter (onBarIn asg b)).toFinset := by
    rw [List.toFinset_filter]
    rfl
  rw [hset, List.toFinset_card_of_nodup hnodup, ← List.countP_eq_length_filter]
  rfl

variable {asg b}

theorem onBarIn_iff {h : LaneId} : onBarIn asg b h = true ↔ ∃ x, asg.get h = some x ∧ x.bar = b := by
  unfold onBarIn
  cases asg.get h <;> simp

theorem mem_lanesAt {h : LaneId} : h ∈ lanesAt asg b ↔ ∃ x, asg.get h = some x ∧ x.bar = b := by
  rw [lanesAt, Finset.mem_filter, List.mem_toFinset, onBarIn_iff]
  exact and_iff_right (mem_laneIds h)

theorem slotOf_eq {h : LaneId} {x : Assign} (hx : asg.get h = some x) : slotOf asg h = x.slot := by
  rw [slotOf, hx]
  rfl

/-- The slots of a bar: no two lanes in one, and none missing below another (R65). -/
def SlotsFit (asg : PerLane (Option Assign)) (b : BarId) : Prop :=
  (∀ h h' x y, asg.get h = some x → asg.get h' = some y → x.bar = b → y.bar = b → x.slot = y.slot → h = h') ∧
  ∀ h x, asg.get h = some x → x.bar = b → ∀ k, k < x.slot → ∃ h' y, asg.get h' = some y ∧ y.bar = b ∧ y.slot = k

/-- The overlaps of a bar (R65). -/
def OverlapsFit (asg : PerLane (Option Assign)) (b : BarId) : Prop :=
  ∀ h h' x y, asg.get h = some x → asg.get h' = some y → x.bar = b → y.bar = b → y.slot = x.slot + 1 →
    x.first + 960 ≤ y.first ∧ y.first ≤ x.first + 1024

theorem slotLane_isSome_iff {k : Nat} :
    (slotLane asg b k).isSome = true ↔ ∃ h ∈ lanesAt asg b, slotOf asg h = k := by
  constructor
  · intro h
    obtain ⟨⟨g, c⟩, hg⟩ := Option.isSome_iff_exists.1 h
    obtain ⟨x, hx, hbar, hslot, _⟩ := slotLane_assigned hg
    exact ⟨g, mem_lanesAt.2 ⟨x, hx, hbar⟩, (slotOf_eq hx).trans hslot⟩
  · rintro ⟨g, hg, hslot⟩
    obtain ⟨x, hx, rfl⟩ := mem_lanesAt.1 hg
    obtain rfl : x.slot = k := (slotOf_eq hx).symm.trans hslot
    obtain ⟨g', c, hsome⟩ := slotLane_exists hx
    rw [hsome]
    rfl

/-- The slots fit where, and only where, the lanes of the bar take the first slots. -/
theorem slotsFit_iff (hslots : ∀ h x, asg.get h = some x → x.slot ≤ 3) :
    SlotsFit asg b ↔ laneCount asg b ≤ 4 ∧ ∀ k, k < laneCount asg b → (slotLane asg b k).isSome = true := by
  simp only [slotLane_isSome_iff, ← lanesAt_card]
  constructor
  · rintro ⟨hunique, hholes⟩
    have hinj : Set.InjOn (slotOf asg) (lanesAt asg b) := by
      intro h hh g hg hslot
      obtain ⟨x, hx, hxb⟩ := mem_lanesAt.1 hh
      obtain ⟨y, hy, hyb⟩ := mem_lanesAt.1 hg
      rw [slotOf_eq hx, slotOf_eq hy] at hslot
      exact hunique h g x y hx hy hxb hyb hslot
    refine ⟨?_, range_subset_of_injOn hinj fun h hh k hk => ?_⟩
    · have hsub : (lanesAt asg b).image (slotOf asg) ⊆ Finset.range 4 := by
        intro k hk
        obtain ⟨h, hh, rfl⟩ := Finset.mem_image.1 hk
        obtain ⟨x, hx, _⟩ := mem_lanesAt.1 hh
        have := hslots h x hx
        rw [slotOf_eq hx, Finset.mem_range]
        omega
      have hcard := Finset.card_le_card hsub
      rwa [Finset.card_range, Finset.card_image_iff.2 hinj] at hcard
    · obtain ⟨x, hx, hxb⟩ := mem_lanesAt.1 hh
      rw [slotOf_eq hx] at hk
      obtain ⟨g, y, hy, hyb, hslot⟩ := hholes h x hx hxb k hk
      exact ⟨g, mem_lanesAt.2 ⟨y, hy, hyb⟩, (slotOf_eq hy).trans hslot⟩
  · rintro ⟨_, hfirst⟩
    obtain ⟨hinj, hlt⟩ := injOn_of_range_subset hfirst
    refine ⟨fun h g x y hx hy hxb hyb hslot => ?_, fun h x hx hxb k hk => ?_⟩
    · refine hinj (mem_lanesAt.2 ⟨x, hx, hxb⟩) (mem_lanesAt.2 ⟨y, hy, hyb⟩) ?_
      rw [slotOf_eq hx, slotOf_eq hy, hslot]
    · have hx' := hlt h (mem_lanesAt.2 ⟨x, hx, hxb⟩)
      rw [slotOf_eq hx] at hx'
      obtain ⟨g, hg, hslot⟩ := hfirst k (by omega)
      obtain ⟨y, hy, hyb⟩ := mem_lanesAt.1 hg
      exact ⟨g, y, hy, hyb, (slotOf_eq hy).symm.trans hslot⟩

theorem slotLane_of_fit (h : SlotsFit asg b) {g : LaneId} {x : Assign} (hx : asg.get g = some x) (hb : x.bar = b) :
    slotLane asg b x.slot = some (g, x.first) := by
  subst hb
  obtain ⟨g', c, hg⟩ := slotLane_exists hx
  obtain ⟨y, hy, hbar, hslot, hfirst⟩ := slotLane_assigned hg
  obtain rfl := h.1 g' g y x hy hx hbar rfl hslot
  obtain rfl : y = x := Option.some.inj (hy.symm.trans hx)
  rw [hg, hfirst]

/-- The values of a function that has one for the first numbers alone, in order. -/
theorem filterMap_range'_getElem? {α : Type} {f : Nat → Option α} (hdown : ∀ j k, j ≤ k → f j = none → f k = none)
    (m s : Nat) (hend : ∀ k, s + m ≤ k → f k = none) (i : Nat) : ((List.range' s m).filterMap f)[i]? = f (s + i) := by
  induction m generalizing s i with
  | zero => exact (hend (s + i) (by omega)).symm
  | succ m ih =>
    rw [List.range'_succ]
    cases hs : f s with
    | none =>
      have hnil : (s :: List.range' (s + 1) m).filterMap f = [] :=
        List.filterMap_eq_nil_iff.2 fun k hk => hdown s k (by
          rcases List.mem_cons.1 hk with rfl | hk
          · exact le_rfl
          · exact (List.mem_range'_1.1 hk).1.trans' (Nat.le_succ s)) hs
      rw [hnil, hdown s (s + i) (by omega) hs]
      rfl
    | some x =>
      rw [List.filterMap_cons_some hs]
      cases i with
      | zero => exact hs.symm
      | succ i =>
        rw [List.getElem?_cons_succ, ih (s + 1) (fun k hk => hend k (by omega)) i]
        congr 1
        omega

theorem overlapsFit_iff (xs : List Nat) :
    overlapsFit xs = true ↔ ∀ k c d, xs[k]? = some c → xs[k + 1]? = some d → c + 960 ≤ d ∧ d ≤ c + 1024 := by
  induction xs with
  | nil => simp [overlapsFit]
  | cons c xs ih =>
    cases xs with
    | nil => simp [overlapsFit]
    | cons d xs =>
      simp only [overlapsFit, Bool.and_eq_true, decide_eq_true_eq, ih]
      constructor
      · rintro ⟨hfirst, hrest⟩ k x y hx hy
        cases k with
        | zero =>
          obtain rfl : c = x := by simpa using hx
          obtain rfl : d = y := by simpa using hy
          exact hfirst
        | succ k => exact hrest k x y (by simpa using hx) (by simpa using hy)
      · intro h
        exact ⟨h 0 c d rfl rfl, fun k x y hx hy => h (k + 1) x y (by simpa using hx) (by simpa using hy)⟩

/-- The lanes of a bar in slot order are those of its slots, where the slots fit. -/
theorem slotOrder_getElem? (hslots : ∀ h x, asg.get h = some x → x.slot ≤ 3) (h : SlotsFit asg b) (k : Nat) :
    (slotOrder asg b)[k]? = slotLane asg b k := by
  have hdown (j k : Nat) (hjk : j ≤ k) (hj : slotLane asg b j = none) : slotLane asg b k = none := by
    by_contra hk
    obtain ⟨⟨g, c⟩, hg⟩ := Option.ne_none_iff_exists'.1 hk
    obtain ⟨x, hx, hbar, hslot, _⟩ := slotLane_assigned hg
    rcases Nat.lt_or_eq_of_le hjk with hlt | rfl
    · obtain ⟨g', y, hy, hyb, hyslot⟩ := h.2 g x hx hbar j (by omega)
      have hsome := slotLane_of_fit h hy hyb
      rw [hyslot, hj] at hsome
      exact absurd hsome (by simp)
    · exact hk hj
  have hend (k : Nat) (hk : 0 + 4 ≤ k) : slotLane asg b k = none := by
    by_contra hsome
    obtain ⟨⟨g, c⟩, hg⟩ := Option.ne_none_iff_exists'.1 hsome
    obtain ⟨x, hx, _, hslot, _⟩ := slotLane_assigned hg
    have := hslots g x hx
    omega
  have hall := filterMap_range'_getElem? hdown 4 0 hend k
  rwa [Nat.zero_add] at hall

theorem barFits_iff (hslots : ∀ h x, asg.get h = some x → x.slot ≤ 3) :
    barFits asg b = true ↔ SlotsFit asg b ∧ OverlapsFit asg b := by
  simp only [barFits, Bool.and_eq_true, decide_eq_true_eq, List.all_eq_true, List.mem_range, ← slotsFit_iff hslots]
  refine and_congr_right fun hfit => ?_
  simp only [overlapsFit_iff, List.getElem?_map, slotOrder_getElem? hslots hfit, Option.map_eq_some_iff]
  constructor
  · intro h g g' x y hx hy hxb hyb hslot
    have hlow := slotLane_of_fit hfit hx hxb
    have hhigh := slotLane_of_fit hfit hy hyb
    rw [hslot] at hhigh
    exact h x.slot x.first y.first ⟨_, hlow, rfl⟩ ⟨_, hhigh, rfl⟩
  · rintro h k c d ⟨⟨g, c'⟩, hg, rfl⟩ ⟨⟨g', d'⟩, hg', rfl⟩
    obtain ⟨x, hx, hxb, hxslot, rfl⟩ := slotLane_assigned hg
    obtain ⟨y, hy, hyb, hyslot, rfl⟩ := slotLane_assigned hg'
    exact h g g' x y hx hy hxb hyb (by omega)

theorem laneCount_ne_zero_iff : laneCount asg b ≠ 0 ↔ ∃ h x, asg.get h = some x ∧ x.bar = b := by
  rw [← lanesAt_card, Finset.card_ne_zero]
  exact exists_congr fun h => mem_lanesAt

end Bar

/-- Check 3 of R66, bar by bar. -/
theorem geometryFits_iff {asg : PerLane (Option Assign)} {bars : PerBar (Bool × Nat)}
    (hslots : ∀ h x, asg.get h = some x → x.slot ≤ 3) :
    geometryFits asg bars = true ↔ GeometryFits asg fun b => (bars.get b).1 = true := by
  have hbar (b : BarId) : (barFits asg b && (!(bars.get b).1 || decide (laneCount asg b ≠ 0))) = true ↔
      (SlotsFit asg b ∧ OverlapsFit asg b) ∧ ((bars.get b).1 = true → ∃ h x, asg.get h = some x ∧ x.bar = b) := by
    rw [Bool.and_eq_true, barFits_iff hslots, ← laneCount_ne_zero_iff]
    cases (bars.get b).1 <;> simp
  simp only [geometryFits, List.all_eq_true, hbar, mem_barIds, true_imp_iff]
  constructor
  · intro h
    refine ⟨fun g g' x y hx hy hxy hslot => ?_, fun g x hx k hk => ?_, fun g g' x y hx hy hxy hslot => ?_, fun b => (h b).2⟩
    · obtain ⟨⟨hfit, _⟩, _⟩ := h x.bar
      exact hfit.1 g g' x y hx hy rfl hxy.symm hslot
    · obtain ⟨⟨hfit, _⟩, _⟩ := h x.bar
      exact hfit.2 g x hx rfl k hk
    · obtain ⟨⟨_, hover⟩, _⟩ := h x.bar
      exact hover g g' x y hx hy rfl hxy.symm hslot
  · rintro ⟨hunique, hholes, hover, hused⟩ b
    refine ⟨⟨⟨fun g g' x y hx hy hxb hyb => hunique g g' x y hx hy (hxb.trans hyb.symm), fun g x hx hxb k hk => ?_⟩,
      fun g g' x y hx hy hxb hyb => hover g g' x y hx hy (hxb.trans hyb.symm)⟩, hused b⟩
    subst hxb
    exact hholes g x hx k hk

end Sys2Proof.Machine
end

section
/-! GEOSET: the entries of its payload, and the geometry it sets. -/

namespace Sys2Proof.Machine

/-! ### The entries (R66) -/

/-- The assignment that a lane entry in range gives (R66). -/
def namedAssign (bar slot first : Nat) : Option Assign :=
  if bar = 255 then none else (barOf bar).map fun b => ⟨b, slot, first⟩

theorem laneEntryOf_of_inRange : ∀ {e : List Byte}, e.length = 4 →
    ¬(byteAt e 0 ≠ 255 ∧ (3 < byteAt e 0 ∨ 3 < byteAt e 1 ∨ 3072 < wordAt e 2)) →
    laneEntryOf e = some (namedAssign (byteAt e 0) (byteAt e 1) (wordAt e 2))
  | [bar, slot, fh, fl], _, h => by
    have hfirst : u16 fh fl = wordAt [bar, slot, fh, fl] 2 := u16_eq_wordAt fh fl
    have hbar : byteAt [bar, slot, fh, fl] 0 = bar.toNat := rfl
    have hslot : byteAt [bar, slot, fh, fl] 1 = slot.toNat := rfl
    rw [laneEntryOf, namedAssign, hfirst, hbar, hslot]
    rw [hbar, hslot] at h
    by_cases hnone : bar.toNat = 255
    · rw [if_pos hnone, if_pos hnone]
    · simp only [ne_eq, hnone, not_false_eq_true, true_and, not_or] at h
      obtain ⟨hb, hs, hf⟩ := h
      obtain ⟨b, hb⟩ := barOf_of_le hb
      rw [if_neg hnone, if_neg hnone, hb]
      exact if_pos ⟨by omega, by omega⟩

theorem laneEntryOf_of_outOfRange : ∀ {e : List Byte}, e.length = 4 →
    byteAt e 0 ≠ 255 ∧ (3 < byteAt e 0 ∨ 3 < byteAt e 1 ∨ 3072 < wordAt e 2) → laneEntryOf e = none
  | [bar, slot, fh, fl], _, h => by
    have hfirst : u16 fh fl = wordAt [bar, slot, fh, fl] 2 := u16_eq_wordAt fh fl
    have hbar : byteAt [bar, slot, fh, fl] 0 = bar.toNat := rfl
    have hslot : byteAt [bar, slot, fh, fl] 1 = slot.toNat := rfl
    rw [hbar, hslot] at h
    obtain ⟨hnone, h⟩ := h
    rw [laneEntryOf, if_neg hnone, hfirst]
    by_cases hb : 3 < bar.toNat
    · rw [barOf_eq_none hb]
    · obtain ⟨b, hb⟩ := barOf_of_le hb
      rw [hb]
      exact if_neg (by omega)

theorem barEntryOf_eq : ∀ {e : List Byte}, e.length = 3 →
    barEntryOf e = if ¬(1 < byteAt e 0 ∨ 8191 < wordAt e 1) then some (byteAt e 0 == 1, wordAt e 1) else none
  | [en, oh, ol], _ => by
    have hoffset : u16 oh ol = wordAt [en, oh, ol] 1 := u16_eq_wordAt oh ol
    have hon : byteAt [en, oh, ol] 0 = en.toNat := rfl
    rw [barEntryOf, hoffset, hon]
    exact if_congr (by omega) rfl rfl

/-! ### The entries of a payload -/

section Payload

variable {p : List Byte} 

theorem byteAt_take_drop {a m k : Nat} (hk : k < m) : byteAt ((p.drop a).take m) k = byteAt p (a + k) := by
  refine byteAt_eq_of_getElem? ?_
  rw [List.getElem?_take_of_lt hk, List.getElem?_drop]

theorem wordAt_take_drop {a m k : Nat} (hk : k + 1 < m) : wordAt ((p.drop a).take m) k = wordAt p (a + k) := by
  rw [wordAt, wordAt, byteAt_take_drop (by omega), byteAt_take_drop hk, Nat.add_assoc]

variable (p)

/-- The entry of a lane in a GEOSET payload is out of range (R66 check 2). -/
def BadLaneEntry (h : LaneId) : Prop :=
  byteAt p (4 * laneNumber h) ≠ 255 ∧ (3 < byteAt p (4 * laneNumber h) ∨ 3 < byteAt p (4 * laneNumber h + 1) ∨
    3072 < wordAt p (4 * laneNumber h + 2))

/-- The entry of a bar in a GEOSET payload is out of range (R66 check 2). -/
def BadBarEntry (b : BarId) : Prop :=
  1 < byteAt p (32 + 3 * barNumber b) ∨ 8191 < wordAt p (33 + 3 * barNumber b)

/-- The assignments a GEOSET payload names. -/
def namedAssigns : PerLane (Option Assign) := .ofFn fun h =>
  namedAssign (byteAt p (4 * laneNumber h)) (byteAt p (4 * laneNumber h + 1)) (wordAt p (4 * laneNumber h + 2))

/-- The enabled flags and offsets a GEOSET payload names. -/
def namedBarEntries : PerBar (Bool × Nat) := .ofFn fun b =>
  (byteAt p (32 + 3 * barNumber b) == 1, wordAt p (33 + 3 * barNumber b))

variable {p} (hlen : p.length = 44)
include hlen

theorem laneEntry_length (h : LaneId) : ((p.drop (4 * laneNumber h)).take 4).length = 4 := by
  rw [List.length_take, List.length_drop, hlen]
  cases h <;> rfl

theorem barEntry_length (b : BarId) : ((p.drop (32 + 3 * barNumber b)).take 3).length = 3 := by
  rw [List.length_take, List.length_drop, hlen]
  cases b <;> rfl

theorem laneEntries_of_good {h : LaneId} (hgood : ¬BadLaneEntry p h) :
    (laneEntries p).get h = some ((namedAssigns p).get h) := by
  have hentry := laneEntryOf_of_inRange (laneEntry_length hlen h)
  simp only [byteAt_take_drop (p := p) (m := 4) (by decide : 0 < 4), byteAt_take_drop (p := p) (m := 4) (by decide : 1 < 4),
    wordAt_take_drop (p := p) (m := 4) (by decide : 2 + 1 < 4), Nat.add_zero] at hentry
  rw [laneEntries, PerLane.get_ofFn, namedAssigns, PerLane.get_ofFn]
  exact hentry hgood

theorem laneEntries_of_bad {h : LaneId} (hbad : BadLaneEntry p h) : (laneEntries p).get h = none := by
  have hentry := laneEntryOf_of_outOfRange (laneEntry_length hlen h)
  simp only [byteAt_take_drop (p := p) (m := 4) (by decide : 0 < 4), byteAt_take_drop (p := p) (m := 4) (by decide : 1 < 4),
    wordAt_take_drop (p := p) (m := 4) (by decide : 2 + 1 < 4), Nat.add_zero] at hentry
  rw [laneEntries, PerLane.get_ofFn]
  exact hentry hbad

theorem barEntries_of_good {b : BarId} (hgood : ¬BadBarEntry p b) :
    (barEntries p).get b = some ((namedBarEntries p).get b) := by
  have hentry := barEntryOf_eq (barEntry_length hlen b)
  rw [byteAt_take_drop (by decide : 0 < 3), wordAt_take_drop (by decide : 1 + 1 < 3), Nat.add_zero,
    show 32 + 3 * barNumber b + 1 = 33 + 3 * barNumber b by omega] at hentry
  rw [barEntries, PerBar.get_ofFn, namedBarEntries, PerBar.get_ofFn, hentry]
  exact if_pos hgood

theorem barEntries_of_bad {b : BarId} (hbad : BadBarEntry p b) : (barEntries p).get b = none := by
  have hentry := barEntryOf_eq (barEntry_length hlen b)
  rw [byteAt_take_drop (by decide : 0 < 3), wordAt_take_drop (by decide : 1 + 1 < 3), Nat.add_zero,
    show 32 + 3 * barNumber b + 1 = 33 + 3 * barNumber b by omega] at hentry
  rw [barEntries, PerBar.get_ofFn, hentry]
  exact if_neg (not_not.2 hbad)

theorem allLanes_of_good (hgood : ∀ h, ¬BadLaneEntry p h) : allLanes (laneEntries p) = some (namedAssigns p) := by
  have hget (h : LaneId) := laneEntries_of_good hlen (hgood h)
  unfold allLanes
  rw [if_pos (List.all_eq_true.2 fun h _ => by rw [hget h]; rfl)]
  refine congrArg some (PerLane.ext_get _ _ fun h => ?_)
  rw [PerLane.get_map, hget h]
  rfl

theorem allLanes_of_bad {h : LaneId} (hbad : BadLaneEntry p h) : allLanes (laneEntries p) = none := by
  unfold allLanes
  refine if_neg fun hall => ?_
  have hsome := List.all_eq_true.1 hall h (mem_laneIds h)
  rw [laneEntries_of_bad hlen hbad] at hsome
  exact absurd hsome (by decide)

theorem allBars_of_good (hgood : ∀ b, ¬BadBarEntry p b) : allBars (barEntries p) = some (namedBarEntries p) := by
  have hget (b : BarId) := barEntries_of_good hlen (hgood b)
  unfold allBars
  rw [if_pos (List.all_eq_true.2 fun b _ => by rw [hget b]; rfl)]
  refine congrArg some (PerBar.ext_get _ _ fun b => ?_)
  rw [PerBar.get_map, hget b]
  rfl

theorem allBars_of_bad {b : BarId} (hbad : BadBarEntry p b) : allBars (barEntries p) = none := by
  unfold allBars
  refine if_neg fun hall => ?_
  have hsome := List.all_eq_true.1 hall b (mem_barIds b)
  rw [barEntries_of_bad hlen hbad] at hsome
  exact absurd hsome (by decide)

omit hlen in
/-- An assignment that a payload in range names has a slot of 0 to 3. -/
theorem namedAssigns_slot (hgood : ∀ h, ¬BadLaneEntry p h) {h : LaneId} {x : Assign}
    (hx : (namedAssigns p).get h = some x) : x.slot ≤ 3 := by
  rw [namedAssigns, PerLane.get_ofFn, namedAssign] at hx
  have hslot := hgood h
  unfold BadLaneEntry at hslot
  split at hx
  · exact absurd hx (by simp)
  next hbar =>
    obtain ⟨b, _, rfl⟩ := Option.map_eq_some_iff.1 hx
    show byteAt p (4 * laneNumber h + 1) ≤ 3
    by_contra hlt
    exact hslot ⟨hbar, .inr (.inl (by omega))⟩

end Payload

/-! ### GEOSET (R66, R67) -/

theorem geometryHeld_iff {s : State} :
    s.geometryHeld = true ↔ (∃ q ∈ s.queue.pages, q.state = .printing) ∨
      ∃ h, (s.lane h).assign ≠ none ∧ (s.lane h).head.IsBusy := by
  have hholds (x : HeadState) : x.holdsGeometry = true ↔ x.IsBusy := by
    cases x <;> simp [HeadState.holdsGeometry, HeadState.IsBusy]
  simp [State.geometryHeld, anyPrinting_iff, mem_laneIds, hholds, Option.isSome_iff_ne_none]

theorem geoset_of_length_ne (s : State) (l : LinkId) (tag : Byte) {p : List Byte} (h : p.length ≠ 44) :
    s.geoset l tag p = s.refuse l tag .badLength := if_pos h

theorem geoset_of_bad (s : State) (l : LinkId) (tag : Byte) {p : List Byte} (hlen : p.length = 44)
    (hbad : (∃ h, BadLaneEntry p h) ∨ ∃ b, BadBarEntry p b) : s.geoset l tag p = s.refuse l tag .badField := by
  unfold State.geoset
  rw [if_neg (not_not.2 hlen)]
  rcases hbad with ⟨h, hbad⟩ | ⟨b, hbad⟩
  · rw [allLanes_of_bad hlen hbad]
  · rw [allBars_of_bad hlen hbad]
    cases allLanes (laneEntries p) <;> rfl

theorem geoset_of_good (s : State) (l : LinkId) (tag : Byte) {p : List Byte} (hlen : p.length = 44)
    (hlanes : ∀ h, ¬BadLaneEntry p h) (hbars : ∀ b, ¬BadBarEntry p b) :
    s.geoset l tag p =
      if !geometryFits (namedAssigns p) (namedBarEntries p) then s.refuse l tag .badField
      else if s.geometryHeld then s.refuse l tag .wrongState
      else (s.setGeometry (namedAssigns p) (namedBarEntries p)).reply l tag .ok [] := by
  unfold State.geoset
  rw [if_neg (not_not.2 hlen), allLanes_of_good hlen hlanes, allBars_of_good hlen hbars]

/-- Settles O30: GEOSET's checks in order, and the geometry it sets. -/
theorem geosetReplacesTheGeometry : Obligations.GeosetReplacesTheGeometry := by
  intro s tag p hl c bar slot first on offset asg
  have hc := exec_of_listens (c := c) (act := State.geoset) hl rfl rfl rfl
  refine checked_cons_of_refuse hl hc (geoset_of_length_ne _ _ _) fun hlen => ?_
  have hlen := not_not.1 hlen
  refine checked_cons_of_refuse hl hc (geoset_of_bad _ _ _ hlen) fun hgood => ?_
  obtain ⟨hlanes, hbars⟩ := not_or.1 hgood
  have hlanes : ∀ h, ¬BadLaneEntry p h := not_exists.1 hlanes
  have hbars : ∀ b, ¬BadBarEntry p b := not_exists.1 hbars
  have ha := geoset_of_good (s.idleAssembler .service) .service tag hlen hlanes hbars
  have hon (b : BarId) : ((namedBarEntries p).get b).1 = decide (on b = 1) := by
    rw [namedBarEntries, PerBar.get_ofFn]
    rfl
  have hfits : geometryFits (namedAssigns p) (namedBarEntries p) = true ↔ GeometryFits asg fun b => on b = 1 := by
    rw [geometryFits_iff fun h x => namedAssigns_slot hlanes]
    simp only [hon, decide_eq_true_eq]
    rfl
  refine checked_cons hl hc (by rw [← hfits, Bool.not_eq_true, Bool.not_eq_true']) ha fun _ ha => ?_
  refine checked_cons hl hc geometryHeld_iff.symm ha fun _ ha => ?_
  refine accepts_of_act hc (ha.trans ?_)
  rw [State.setGeometry]
  rfl

end Sys2Proof.Machine
end

section
/-! Trim, keep-wet and idle counts of one nozzle. -/

namespace Sys2Proof.Machine

/-! ### Trim (R126) -/

theorem unfit_eq_false_iff {x : NozzleState} : x.unfit = false ↔ x = .good ∨ x = .weak := by
  cases x <;> simp [NozzleState.unfit]

theorem up_val (v : Level) (h : v ≠ .l0) : v.up.val = min 3 (v.val + 1) := by
  cases v with
  | l0 => exact absurd rfl h
  | l1 => rfl
  | l2 => rfl
  | l3 => rfl

theorem down_val (v : Level) (h : v ≠ .l0) : v.down.val = max 1 (v.val - 1) := by
  cases v with
  | l0 => exact absurd rfl h
  | l1 => rfl
  | l2 => rfl
  | l3 => rfl

/-- Whether trim acts on a nozzle that holds a level (R126). -/
def Nozzle.Trims (x : Nozzle) (v : Level) : Prop := (x.state = .good ∨ x.state = .weak) ∧ v ≠ .l0 ∧ x.trim ≠ 0

theorem trims_iff {x : Nozzle} {v : Level} : x.Trims v ↔ ¬(v = .l0 ∨ x.state.unfit = true ∨ x.trim = 0) := by
  rw [Nozzle.Trims, ← unfit_eq_false_iff, not_or, not_or, Bool.not_eq_true]
  exact and_left_comm

theorem trimmed_of_plain {x : Nozzle} {v : Level} (h : ¬x.Trims v) : trimmed x v = (v, x.acc) :=
  if_pos (not_not.1 (mt trims_iff.2 h))

theorem trimmed_of_trims {x : Nozzle} {v : Level} (h : x.Trims v) :
    trimmed x v = if 16 ≤ x.acc + x.trim.natAbs
      then (if 0 < x.trim then v.up else v.down, x.acc + x.trim.natAbs - 16) else (v, x.acc + x.trim.natAbs) :=
  if_neg (trims_iff.1 h)

/-! ### Keep-wet (R128) -/

theorem due_iff {limit : Nat} {x : Nozzle} {v : Level} :
    due limit x v = true ↔ v = .l0 ∧ ((x.state = .good ∧ limit - 1 ≤ x.idle) ∨
      (x.state = .weak ∧ max 1 (limit / 2) - 1 ≤ x.idle)) := by
  unfold due
  cases hs : x.state <;> simp [keepWetLimit, and_comm]

theorem keepWetDrop_of_not_due {kind : RowKind} {f : BarFields} {x : Nozzle} {v : Level} (h : due f.limit x v = false) :
    keepWetDrop kind f x v = ⟨v, .plain⟩ := if_neg (by simp [h])

theorem keepWetDrop_check (f : BarFields) (x : Nozzle) (v : Level) : keepWetDrop .check f x v = ⟨v, .plain⟩ :=
  if_neg (by simp)

theorem keepWetDrop_off (kind : RowKind) {f : BarFields} (x : Nozzle) (v : Level) (hf : f.keepWet = .off) :
    keepWetDrop kind f x v = ⟨v, .plain⟩ := by
  unfold keepWetDrop
  rw [hf]
  split <;> rfl

/-- What a due nozzle gets, by the bar's keep-wet mode and the kind of row (R128). -/
def keptWet (v : Level) : KeepWet → RowKind → Drop
  | .off, _ => ⟨v, .plain⟩
  | .tickle, _ => ⟨v, .tickle⟩
  | .spitAny, _ => ⟨.l1, .spit⟩
  | .spitGap, .page => ⟨v, .plain⟩
  | .spitGap, _ => ⟨.l1, .spit⟩

theorem keepWetDrop_of_due {kind : RowKind} {f : BarFields} {x : Nozzle} {v : Level} (h : due f.limit x v = true)
    (hk : kind ≠ .check) : keepWetDrop kind f x v = keptWet v f.keepWet kind :=
  if_pos (by rw [h, Bool.and_true]; exact bne_iff_ne.2 hk)

/-! ### Idle counts (R129) -/

theorem tick_of_fit {x : Nozzle} (limit : Nat) (h : x.state = .good ∨ x.state = .weak) (emitted : Bool) :
    (x.tick limit emitted).idle =
      if emitted then 0 else min (x.idle + 1) (if x.state = .weak then max 1 (limit / 2) else limit) := by
  unfold Nozzle.tick
  rcases h with h | h <;> simp only [h, keepWetLimit, reduceCtorEq, if_true, if_false]

theorem tick_of_unfit {x : Nozzle} (limit : Nat) (hg : x.state ≠ .good) (hw : x.state ≠ .weak) (emitted : Bool) :
    x.tick limit emitted = x := by
  unfold Nozzle.tick
  cases hs : x.state with
  | good => exact absurd hs hg
  | weak => exact absurd hs hw
  | disabled => rfl
  | failed c => rfl

theorem emits_full_iff {d : Drop} : d.emits .full = true ↔ d.level ≠ .l0 ∨ d.mark = .tickle := by
  simp [Drop.emits]

theorem emits_keepWetOnly_iff {d : Drop} : d.emits .keepWetOnly = true ↔ d.mark = .tickle ∨ d.mark = .spit := by
  obtain ⟨v, mark⟩ := d
  cases mark <;> simp [Drop.emits]

/-- Whether a nozzle emits, by the drop it has, if it has one. -/
def emitsAt (m : FireMode) : Option Drop → Bool
  | some d => d.emits m
  | none => false

theorem idleFired_getElem? (limit : Nat) (m : FireMode) (xs : List Nozzle) (ds : List Drop) (n : Nat) :
    (idleFired limit m xs ds)[n]? = xs[n]?.map (·.tick limit (emitsAt m ds[n]?)) := by
  induction xs generalizing ds n with
  | nil => cases ds <;> rfl
  | cons x xs ih =>
    cases ds with
    | nil => exact List.getElem?_map
    | cons d ds =>
      cases n with
      | zero => rfl
      | succ n => exact ih ds n

/-- Settles O59: trim, keep-wet and idle counts, nozzle by nozzle. -/
theorem trimKeepWetAndIdleCounts : Obligations.TrimKeepWetAndIdleCounts := by
  refine ⟨fun x v => ?_, fun kind f x v => ?_, fun limit x d => ?_⟩
  · intro fires sum
    refine ⟨trimmed_of_plain, fun hfires hsum => ?_, fun hfires hsum => ?_⟩
    · exact (trimmed_of_trims hfires).trans (if_neg (by omega))
    · have ht : trimmed x v = _ := (trimmed_of_trims hfires).trans (if_pos hsum)
      rw [ht]
      refine ⟨rfl, fun hup => ?_, fun hdown => ?_⟩
      · rw [if_pos hup]
        exact up_val v hfires.2.1
      · rw [if_neg (by omega)]
        exact down_val v hfires.2.1
  · intro isDue d
    refine ⟨fun hplain => ?_, fun hdue hk hf => ?_, fun hdue hk hf => ?_, fun hdue hk hf => ?_, fun hdue hk hf => ?_⟩
    · rcases hplain with hdue | hk | hf
      · exact keepWetDrop_of_not_due (Bool.eq_false_iff.2 (mt due_iff.1 hdue))
      · subst hk
        exact keepWetDrop_check f x v
      · exact keepWetDrop_off kind x v hf
    · exact (keepWetDrop_of_due (due_iff.2 hdue) hk).trans (by rw [hf, hdue.1]; rfl)
    · exact (keepWetDrop_of_due (due_iff.2 hdue) hk).trans (by rw [hf]; rfl)
    · subst hk
      exact (keepWetDrop_of_due (due_iff.2 hdue) (by decide)).trans (by rw [hf, hdue.1]; rfl)
    · rcases hk with rfl | rfl
      · exact (keepWetDrop_of_due (due_iff.2 hdue) (by decide)).trans (by rw [hf]; rfl)
      · exact (keepWetDrop_of_due (due_iff.2 hdue) (by decide)).trans (by rw [hf]; rfl)
  · intro own
    refine ⟨fun hfit => ⟨tick_of_fit limit hfit true, tick_of_fit limit hfit false⟩, fun hg hw => tick_of_unfit limit hg hw,
      emits_full_iff, emits_keepWetOnly_iff, fun m xs ds n => ⟨List.getElem?_map, ?_⟩⟩
    rw [idleFired_getElem?]
    cases ds[n]? <;> rfl

end Sys2Proof.Machine
end

section
/-! What a head does with its load at step 1 of a tick. -/

namespace Sys2Proof.Machine

/-! ### A lane after its head has fired or missed (R85 to R88) -/

theorem laneTick_of_miss (x : Lane) (kind : RowKind) (limit : Nat) {o : HeadOutcome} (ho : o.mode = none) :
    x.tick kind limit o =
      { x with load := none, nozzles := if kind = .check then x.nozzles else idleQuiet limit x.nozzles } := by
  simp only [Lane.tick, Lane.idleAt, ho, Option.isSome_none, Bool.false_eq_true, if_false, Bool.or_false]

theorem laneTick_of_fire {x : Lane} (kind : RowKind) (limit : Nat) {o : HeadOutcome} {m : FireMode} {ld : HeadLoad}
    (ho : o.mode = some m) (hld : x.load = some ld) :
    x.tick kind limit o =
      { x with
        load := none, fire := some ld, fireOpen := true
        nozzles := if kind = .check then x.nozzles else idleFired limit m x.nozzles ld.drops } := by
  simp only [Lane.tick, Lane.idleAt, ho, hld, loadDrops, Option.isSome_some, if_true, Bool.or_true]

/-! ### A head's part of a tick, by its outcome -/

section Outcome

variable {s : State} {h : LaneId} {kind : RowKind} {limit : Nat} {page : Option Nat} {suppressed waiting : Bool}

/-- The state after a head has missed the row of a tick. -/
def State.headMisses (s : State) (kind : RowKind) (limit : Nat) (h : LaneId) : State :=
  s.modLane h fun x =>
    { x with load := none, nozzles := if kind = .check then x.nozzles else idleQuiet limit x.nozzles }

/-- The state after a head has fired its load. -/
def State.headFires (s : State) (kind : RowKind) (limit : Nat) (h : LaneId) (ld : HeadLoad) (m : FireMode) : State :=
  (s.modLane h fun x =>
    { x with
      load := none, fire := some ld, fireOpen := true
      nozzles := if kind = .check then x.nozzles else idleFired limit m x.nozzles ld.drops }).send
    (.head h (.fire ld.number m))

theorem modLane_tick_of_miss {o : HeadOutcome} (ho : o.mode = none) :
    s.modLane h (·.tick kind limit o) = s.headMisses kind limit h :=
  congrArg (s.modLane h) (funext fun x => laneTick_of_miss x kind limit ho)

theorem tickHead_of_nothing (ho : headOutcome suppressed waiting (s.lane h) = .nothing) :
    s.tickHead kind limit page suppressed waiting h = s.headMisses kind limit h := by
  simp only [State.tickHead, ho]
  exact modLane_tick_of_miss rfl

theorem tickHead_of_fire {ld : HeadLoad} {o : HeadOutcome} {m : FireMode}
    (ho : headOutcome suppressed waiting (s.lane h) = o) (hm : o.mode = some m) (hld : (s.lane h).load = some ld) :
    s.tickHead kind limit page suppressed waiting h = s.headFires kind limit h ld m := by
  have hlane : s.modLane h (·.tick kind limit o) = s.modLane h fun x =>
      { x with
        load := none, fire := some ld, fireOpen := true
        nozzles := if kind = .check then x.nozzles else idleFired limit m x.nozzles ld.drops } :=
    congrArg (fun x => s.setLanes (s.lanes.set h x)) (laneTick_of_fire kind limit hm hld)
  simp only [State.tickHead, ho]
  rw [hlane, hld]
  cases o with
  | keepWet =>
    obtain rfl : .keepWetOnly = m := Option.some.inj hm
    rfl
  | fired =>
    obtain rfl : .full = m := Option.some.inj hm
    rfl
  | nothing => exact absurd hm (by simp [HeadOutcome.mode])
  | overspeed => exact absurd hm (by simp [HeadOutcome.mode])
  | late => exact absurd hm (by simp [HeadOutcome.mode])

/-- A change of the page of a row, if it is a page's. -/
def State.onPage (s : State) (page : Option Nat) (f : Page → Page) : State :=
  match page with
  | some id => s.modPage id f
  | none => s

theorem tickHead_of_late (ho : headOutcome suppressed waiting (s.lane h) = .late) :
    s.tickHead kind limit page suppressed waiting h = (s.headMisses kind limit h).onPage page Page.countLate := by
  simp only [State.tickHead, ho]
  rw [modLane_tick_of_miss rfl]
  cases page <;> rfl

theorem tickHead_of_overspeed (ho : headOutcome suppressed waiting (s.lane h) = .overspeed) :
    s.tickHead kind limit page suppressed waiting h =
      (((s.headMisses kind limit h).setPosition
        { s.position with overspeed := min 65535 (s.position.overspeed + 1) }).raise .motion .overspeed).onPage page
          Page.countOverspeed := by
  simp only [State.tickHead, ho]
  rw [modLane_tick_of_miss rfl]
  cases page <;> rfl

end Outcome

/-- Settles O57: what a head does at a tick, by the cases of R85. -/
theorem headsFireOrMiss : Obligations.HeadsFireOrMiss := by
  refine ⟨fun s kind limit page suppressed waiting h hnone => ?_, fun s kind limit page suppressed waiting h ld hld => ?_⟩
  · have ho : headOutcome suppressed waiting (s.lane h) = .nothing := by rw [headOutcome, hnone]
    refine (tickHead_of_nothing ho).trans ?_
    rw [State.headMisses, State.modLane, ← hnone]
    rfl
  · intro ln t misses fires onPage
    have ho : headOutcome suppressed waiting ln = if suppressed then (if ld.stage = .complete ∧ ¬ln.fireOpen then .keepWet
        else .nothing) else if waiting then .nothing else if ln.fireOpen then .overspeed
        else if ld.stage ≠ .complete then .late else .fired := by
      rw [headOutcome, show ln.load = some ld from hld]
    refine ⟨fun hs hstage hopen => ?_, fun hs hno => ?_, fun hs hw => ?_, fun hs hw hopen => ?_,
      fun hs hw hopen hstage => ?_, fun hs hw hopen hstage => ?_⟩
    · exact tickHead_of_fire (o := .keepWet) (ho.trans (by simp [hs, hstage, hopen])) rfl hld
    · refine tickHead_of_nothing (ho.trans ?_)
      rcases hno with hstage | hopen
      · simp [hs, hstage]
      · simp [hs, hopen]
    · exact tickHead_of_nothing (ho.trans (by simp [hs, hw]))
    · refine (tickHead_of_overspeed (ho.trans (by simp [hs, hw, hopen]))).trans ?_
      cases page <;> rfl
    · refine (tickHead_of_late (ho.trans (by simp [hs, hw, hopen, hstage]))).trans ?_
      cases page <;> rfl
    · exact tickHead_of_fire (o := .fired) (ho.trans (by simp [hs, hw, hopen, hstage])) rfl hld

end Sys2Proof.Machine
end

section
/-! SUPPORT. The heads of a bar in slot order, what lies over their nozzles, and the levels they are given (R65, R120 to R123). -/

namespace Sys2Proof.Machine

/-! ### The slot order (R65) -/

section Order

variable {asg : PerLane (Option Assign)} {b : BarId}

theorem mem_slotOrder {x : LaneId × Nat} : x ∈ slotOrder asg b ↔ ∃ k < 4, slotLane asg b k = some x := by
  rw [slotOrder, List.mem_filterMap]
  refine exists_congr fun k => and_congr_left' ?_
  simp only [List.mem_cons, List.not_mem_nil, or_false]
  omega

theorem assigned_of_mem_slotOrder {h : LaneId} {c : Nat} (hx : (h, c) ∈ slotOrder asg b) :
    ∃ a, asg.get h = some a ∧ a.bar = b ∧ a.first = c := by
  obtain ⟨k, _, hk⟩ := mem_slotOrder.1 hx
  obtain ⟨a, ha, hbar, _, hfirst⟩ := slotLane_assigned hk
  exact ⟨a, ha, hbar, hfirst⟩

/-- The slots of the heads of a bar, in slot order, go up. -/
theorem slotOrder_pairwise (asg : PerLane (Option Assign)) (b : BarId) :
    (slotOrder asg b).Pairwise fun x y => slotOf asg x.1 < slotOf asg y.1 := by
  have hup : List.Pairwise (· < ·) [0, 1, 2, 3] := by decide
  refine List.Pairwise.filterMap _ (fun j k hjk x hx y hy => ?_) hup
  obtain ⟨a, ha, _, haslot, _⟩ := slotLane_assigned (h := x.1) (c := x.2) hx
  obtain ⟨z, hz, _, hzslot, _⟩ := slotLane_assigned (h := y.1) (c := y.2) hy
  rw [slotOf_eq ha, slotOf_eq hz, haslot, hzslot]
  exact hjk

/-- No lane stands in the slot order twice. -/
theorem slotOrder_lanes_nodup (asg : PerLane (Option Assign)) (b : BarId) : ((slotOrder asg b).map Prod.fst).Nodup := by
  refine List.pairwise_map.2 ((slotOrder_pairwise asg b).imp fun hlt heq => ?_)
  rw [heq] at hlt
  exact lt_irrefl _ hlt

theorem exists_mem_slotOrder {h : LaneId} {a : Assign} (ha : asg.get h = some a) (hslot : a.slot ≤ 3) :
    ∃ g c z, (g, c) ∈ slotOrder asg a.bar ∧ asg.get g = some z ∧ z.slot = a.slot := by
  obtain ⟨g, c, hg⟩ := slotLane_exists ha
  obtain ⟨z, hz, _, hzslot, _⟩ := slotLane_assigned hg
  exact ⟨g, c, z, mem_slotOrder.2 ⟨a.slot, by omega, hg⟩, hz, hzslot⟩

end Order

theorem takesPart_iff {ln : Lane} {page row : Nat} :
    ln.takesPart page row = true ↔ ln.head = .active ∧ ∃ ld, ln.load = some ld ∧ ld.row = .page page row := by
  unfold Lane.takesPart
  cases ln.load <;> simp

/-! ### The shares of the heads, one by one -/

theorem shares_getElem? (f : BarFields) (row : Nat) (part : Option PlanePart) (left : Option AssignHead)
    (heads : List AssignHead) (i : Nat) :
    (shares f row part left heads)[i]? = heads[i]?.map fun h =>
      (h, headShare f row h.first h.takesPart h.entries
        (partnersOf (if i = 0 then left else heads[i - 1]?) h heads[i + 1]?) (partLevels part h.first)) := by
  induction heads generalizing left i with
  | nil => rfl
  | cons h hs ih =>
    cases i with
    | zero => simp [shares, List.head?_eq_getElem?]
    | succ i =>
      rw [shares, List.getElem?_cons_succ, ih (some h) i]
      cases i <;> rfl

theorem shares_heads (f : BarFields) (row : Nat) (part : Option PlanePart) (left : Option AssignHead)
    (heads : List AssignHead) : (shares f row part left heads).map Prod.fst = heads := by
  induction heads generalizing left with
  | nil => rfl
  | cons h hs ih => rw [shares, List.map_cons, ih]

/-! ### What lies over the nozzles (R120, R121) -/

/-- The partners a head has of the lower slot, at its first nozzles. -/
def lowPartners (left : Option AssignHead) (own : AssignHead) : List Partner :=
  match left with
  | some a => partnersFrom (fun j e => .left j (overlapWidth a own) a.takesPart e) 0
      (a.entries.drop (1024 - overlapWidth a own))
  | none => []

/-- The partners a head has of the higher slot, at its last nozzles. -/
def highPartners (own : AssignHead) (right : Option AssignHead) : List Partner :=
  match right with
  | some z => partnersFrom (fun j e => .right j (overlapWidth own z) z.takesPart e) 0
      (z.entries.take (overlapWidth own z))
  | none => []

theorem partnersOf_eq (left : Option AssignHead) (own : AssignHead) (right : Option AssignHead) :
    partnersOf left own right = lowPartners left own ++
      List.replicate (1024 - (lowPartners left own).length - (highPartners own right).length) .sole ++
        highPartners own right := rfl

/-- The overlap a head has with a neighbour, none where there is no neighbour. -/
def widthBelow (left : Option AssignHead) (own : AssignHead) : Nat := (left.map (overlapWidth · own)).getD 0

def widthAbove (own : AssignHead) (right : Option AssignHead) : Nat := (right.map (overlapWidth own)).getD 0

section Partners

variable {left right : Option AssignHead} {own : AssignHead}

theorem lowPartners_length (h : ∀ a, left = some a →
      a.entries.length = 1024 ∧ a.first + 960 ≤ own.first ∧ own.first ≤ a.first + 1024) :
    (lowPartners left own).length = widthBelow left own ∧ widthBelow left own ≤ 64 := by
  cases left with
  | none => exact ⟨rfl, Nat.zero_le 64⟩
  | some a =>
    obtain ⟨hlen, hlow, hhigh⟩ := h a rfl
    simp only [lowPartners, widthBelow, Option.map_some, Option.getD_some, partnersFrom_length, List.length_drop, hlen,
      overlapWidth]
    omega

theorem highPartners_length (h : ∀ z, right = some z →
      z.entries.length = 1024 ∧ own.first + 960 ≤ z.first ∧ z.first ≤ own.first + 1024) :
    (highPartners own right).length = widthAbove own right ∧ widthAbove own right ≤ 64 := by
  cases right with
  | none => exact ⟨rfl, Nat.zero_le 64⟩
  | some z =>
    obtain ⟨hlen, hlow, hhigh⟩ := h z rfl
    simp only [highPartners, widthAbove, Option.map_some, Option.getD_some, partnersFrom_length, List.length_take, hlen,
      overlapWidth]
    omega

theorem lowPartners_getElem? {a : AssignHead} {n : Nat} (hlen : a.entries.length = 1024) (hlow : a.first + 960 ≤ own.first)
    (hhigh : own.first ≤ a.first + 1024) (hn : own.first + n < a.first + 1024) :
    ∃ e, a.entries[own.first + n - a.first]? = some e ∧
      (lowPartners (some a) own)[n]? = some (.left n (a.first + 1024 - own.first) a.takesPart e) := by
  have hi : own.first + n - a.first < a.entries.length := by omega
  refine ⟨_, List.getElem?_eq_getElem hi, ?_⟩
  have hindex : 1024 - overlapWidth a own + n = own.first + n - a.first := by
    rw [overlapWidth]
    omega
  rw [lowPartners, partnersFrom_getElem?, List.getElem?_drop, hindex, List.getElem?_eq_getElem hi, Nat.zero_add]
  rfl

theorem highPartners_getElem? {z : AssignHead} {j : Nat} (hlen : z.entries.length = 1024)
    (hlow : own.first + 960 ≤ z.first) (hj : j < own.first + 1024 - z.first) :
    ∃ e, z.entries[j]? = some e ∧
      (highPartners own (some z))[j]? = some (.right j (own.first + 1024 - z.first) z.takesPart e) := by
  have hi : j < z.entries.length := by omega
  refine ⟨_, List.getElem?_eq_getElem hi, ?_⟩
  rw [highPartners, partnersFrom_getElem?, List.getElem?_take_of_lt (by rwa [overlapWidth]),
    List.getElem?_eq_getElem hi, Nat.zero_add]
  rfl

/-- The columns of a head: the overlap below, those over which it lies alone, the overlap above (R120). -/
theorem partnersOf_fit
    (hleft : ∀ a, left = some a →
      a.entries.length = 1024 ∧ a.first + 960 ≤ own.first ∧ own.first ≤ a.first + 1024)
    (hright : ∀ z, right = some z →
      z.entries.length = 1024 ∧ own.first + 960 ≤ z.first ∧ z.first ≤ own.first + 1024) :
    let ps := partnersOf left own right
    ps.length = 1024 ∧ ∀ n, n < 1024 → let column := own.first + n
      (∀ a, left = some a → column < a.first + 1024 → ∃ e, a.entries[column - a.first]? = some e ∧
        ps[n]? = some (.left (column - own.first) (a.first + 1024 - own.first) a.takesPart e)) ∧
      (∀ z, right = some z → z.first ≤ column → ∃ e, z.entries[column - z.first]? = some e ∧
        ps[n]? = some (.right (column - z.first) (own.first + 1024 - z.first) z.takesPart e)) ∧
      ((∀ a, left = some a → a.first + 1024 ≤ column) → (∀ z, right = some z → column < z.first) →
        ps[n]? = some .sole) := by
  obtain ⟨hlowLen, hlowMax⟩ := lowPartners_length hleft
  obtain ⟨hhighLen, hhighMax⟩ := highPartners_length hright
  have hps := partnersOf_eq left own right
  dsimp only
  refine ⟨by simp only [hps, List.length_append, List.length_replicate]; omega, fun n hn => ⟨?_, ?_, ?_⟩⟩
  · rintro a rfl hcol
    obtain ⟨hlen, hlow, hhigh⟩ := hleft a rfl
    obtain ⟨e, he, hpartner⟩ := lowPartners_getElem? hlen hlow hhigh hcol
    refine ⟨e, he, ?_⟩
    have hn' : n < (lowPartners (some a) own).length := (List.getElem?_eq_some_iff.1 hpartner).1
    rw [hps, List.append_assoc, List.getElem?_append_left hn', hpartner, Nat.add_sub_cancel_left]
  · rintro z rfl hcol
    obtain ⟨hlen, hlow, hhigh⟩ := hright z rfl
    obtain ⟨e, he, hpartner⟩ := highPartners_getElem? (own := own) (j := own.first + n - z.first) hlen hlow (by omega)
    refine ⟨e, he, ?_⟩
    have hwidth : widthAbove own (some z) = own.first + 1024 - z.first := rfl
    rw [hps, List.getElem?_append_right (by simp only [List.length_append, List.length_replicate]; omega), ← hpartner]
    congr 1
    simp only [List.length_append, List.length_replicate]
    omega
  · intro hbelow habove
    have hlow : widthBelow left own ≤ n := by
      cases left with
      | none => exact Nat.zero_le n
      | some a =>
        have := hbelow a rfl
        show a.first + 1024 - own.first ≤ n
        omega
    have hhigh : n + widthAbove own right < 1024 := by
      cases right with
      | none => exact hn
      | some z =>
        have := habove z rfl
        show n + (own.first + 1024 - z.first) < 1024
        omega
    rw [hps, List.append_assoc, List.getElem?_append_right (by omega),
      List.getElem?_append_left (by rw [List.length_replicate]; omega), List.getElem?_replicate, if_pos (by omega)]

end Partners

/-! ### The levels of a part at the columns of a head (R5) -/

/-- The level a part has at a column. -/
def PlanePart.levelAt (x : PlanePart) (column : Nat) : Level :=
  if x.first ≤ column then x.levels.getD (column - x.first) .l0 else .l0

theorem partLevels_getElem? {part : Option PlanePart} {first n : Nat} (hn : n < 1024) :
    (partLevels part first)[n]? = some ((part.map (·.levelAt (first + n))).getD .l0) := by
  have hpad (vs : List Level) : (vs.take 1024 ++ List.replicate (1024 - vs.length) Level.l0)[n]? = some (vs.getD n .l0) := by
    by_cases h : n < vs.length
    · rw [List.getElem?_append_left (by rw [List.length_take]; omega), List.getElem?_take_of_lt hn,
        List.getD_eq_getElem?_getD, List.getElem?_eq_getElem h, Option.getD_some]
    · rw [List.getElem?_append_right (by rw [List.length_take]; omega), List.getElem?_replicate,
        if_pos (by rw [List.length_take]; omega), List.getD_eq_default _ _ (by omega)]
  refine (hpad _).trans (congrArg some ?_)
  cases part with
  | none => rfl
  | some x =>
    rw [Option.map_some, Option.getD_some, PlanePart.levelAt]
    dsimp only
    split
    next hx =>
      rw [List.getD_append_right _ _ _ _ (by rw [List.length_replicate]; omega), List.length_replicate,
        List.getD_eq_getElem?_getD, List.getElem?_drop, List.getD_eq_getElem?_getD]
      congr 2
      omega
    next hx =>
      rw [List.getD_append _ _ _ _ (by rw [List.length_replicate]; omega), List.getD_replicate _ (by omega)]

/-! ### Handover and rescue (R121 to R123) -/

section Holds

variable (mode : Handover) (row column : Nat)

theorem holds_sole (a : Nozzle) (part : Bool) : holds mode row column part a .sole = part := by
  simp [holds, given, rescuedAway, rescues]

variable (j w : Nat) (a b : Nozzle)

theorem holds_right (part other : Bool) :
    holds mode row column part a (.right j w other b) =
      (part && ((!other || goesToLower mode row column j w) && !(a.state.unfit && other && b.state == .good) ||
        (other && !(!other || goesToLower mode row column j w) && a.state == .good && b.state.unfit))) := by
  cases part <;> simp [holds, given, rescuedAway, rescues]

theorem holds_left (part other : Bool) :
    holds mode row column part b (.left j w other a) =
      (part && ((!other || !goesToLower mode row column j w) && !(b.state.unfit && other && a.state == .good) ||
        (other && !(!other || !goesToLower mode row column j w) && b.state == .good && a.state.unfit))) := by
  cases part <;> simp [holds, given, rescuedAway, rescues]

/-- Of two heads that take part, the lower one holds a column that goes to it unless it is rescued away, and one that
does not if it rescues it. -/
theorem holds_right_of_both :
    holds mode row column true a (.right j w true b) = true ↔
      if goesToLower mode row column j w = true then ¬(a.state.unfit = true ∧ b.state = .good)
      else b.state.unfit = true ∧ a.state = .good := by
  rw [holds_right]
  cases goesToLower mode row column j w with
  | true => simp [imp_iff_not_or, or_comm]
  | false => simp [and_comm]

/-- Of two heads that take part, one holds the column. -/
theorem holds_left_of_both :
    holds mode row column true b (.left j w true a) = !holds mode row column true a (.right j w true b) := by
  rw [holds_right, holds_left]
  cases goesToLower mode row column j w <;> simp [Bool.and_comm, Bool.or_comm]

end Holds

end Sys2Proof.Machine
end

section
/-! Overlap columns, substitution, and the assignment of a page row at the heads of a bar. -/

namespace Sys2Proof.Machine

/-! ### Substitution (R124, R125) -/

theorem substituteOf_eq_some {xs : List Nozzle} {n : Nat} {x : Nozzle} {m : Nat} :
    substituteOf xs n x = some m ↔
      ∃ d y, x.sub = some d ∧ (m : Int) = n + d ∧ xs[m]? = some y ∧ y.state = .good := by
  unfold substituteOf
  cases hsub : x.sub with
  | none => simp
  | some d =>
    dsimp only
    constructor
    · intro h
      split at h
      next y hy =>
        obtain ⟨⟨hpos, hgood⟩, hm⟩ := Option.ite_none_right_eq_some.1 h
        obtain rfl := Option.some.inj hm
        exact ⟨d, y, rfl, Int.toNat_of_nonneg hpos, hy, hgood⟩
      next => exact absurd h (by simp)
    · rintro ⟨d', y, hd, hm, hy, hgood⟩
      obtain rfl := Option.some.inj hd
      have htoNat : ((n : Int) + d).toNat = m := by omega
      rw [htoNat, hy]
      exact if_pos ⟨by omega, hgood⟩

/-- Whether a nozzle gives its level away: it is unfit and holds one (R124). -/
def Spot.donates (y : Spot) : Bool := y.entry.state.unfit && y.level != .l0

theorem donorsFrom_eq (xs : List Nozzle) (k : Nat) (spots : List Spot) :
    donorsFrom xs k spots = ((spots.zipIdx k).filter (·.1.donates)).map fun y =>
      (substituteOf xs y.2 y.1.entry, y.1.level) := by
  induction spots generalizing k with
  | nil => rfl
  | cons y spots ih =>
    rw [donorsFrom, List.zipIdx_cons, List.filter_cons, ih]
    by_cases hy : y.donates = true
    · exact (if_pos hy).trans (by rw [if_pos hy, List.map_cons])
    · exact (if_neg hy).trans (by rw [if_neg hy])

theorem donorsFrom_length (xs : List Nozzle) (k : Nat) (spots : List Spot) :
    (donorsFrom xs k spots).length = spots.countP Spot.donates := by
  have hspots : spots = (spots.zipIdx k).map Prod.fst := by simp
  rw [donorsFrom_eq, List.length_map, ← List.countP_eq_length_filter]
  conv_rhs => rw [hspots, List.countP_map]
  rfl

theorem mem_donorsFrom {xs : List Nozzle} {spots : List Spot} {dest : Option Nat} {v : Level} :
    (dest, v) ∈ donorsFrom xs 0 spots ↔
      ∃ n y, spots[n]? = some y ∧ y.donates = true ∧ v = y.level ∧ dest = substituteOf xs n y.entry := by
  simp only [donorsFrom_eq, List.mem_map, List.mem_filter, List.mem_zipIdx_iff_getElem?, Prod.mk.injEq]
  constructor
  · rintro ⟨⟨y, n⟩, ⟨hy, hdonates⟩, hdest, hv⟩
    exact ⟨n, y, hy, hdonates, hv.symm, hdest.symm⟩
  · rintro ⟨n, y, hy, hdonates, rfl, rfl⟩
    exact ⟨(y, n), ⟨hy, hdonates⟩, rfl, rfl⟩

theorem larger_le_left (v w : Level) : v.val ≤ (v.larger w).val := by
  unfold Level.larger
  split <;> omega

theorem larger_le_right (v w : Level) : w.val ≤ (v.larger w).val := by
  unfold Level.larger
  split <;> omega

theorem larger_eq_or (v w : Level) : v.larger w = v ∨ v.larger w = w := by
  unfold Level.larger
  split
  · exact Or.inr rfl
  · exact Or.inl rfl

/-- The largest of a level and the levels that donors move to a nozzle (R124). -/
theorem foldl_larger (n : Nat) (donors : List (Option Nat × Level)) (v : Level) :
    let r := donors.foldl (fun v d => if d.1 = some n then v.larger d.2 else v) v
    v.val ≤ r.val ∧ (∀ w, (some n, w) ∈ donors → w.val ≤ r.val) ∧ (r = v ∨ (some n, r) ∈ donors) := by
  induction donors generalizing v with
  | nil => exact ⟨le_rfl, by simp, Or.inl rfl⟩
  | cons d donors ih =>
    rw [List.foldl_cons]
    by_cases hd : d.1 = some n
    · rw [if_pos hd]
      obtain ⟨hown, hall, hsrc⟩ := ih (v.larger d.2)
      refine ⟨(larger_le_left v d.2).trans hown, fun w hw => ?_, ?_⟩
      · rcases List.mem_cons.1 hw with rfl | hw
        · exact (larger_le_right v w).trans hown
        · exact hall w hw
      · rcases hsrc with hsrc | hsrc
        · rcases larger_eq_or v d.2 with h | h
          · exact Or.inl (hsrc.trans h)
          · exact Or.inr (List.mem_cons.2 (Or.inl (Prod.ext hd.symm (hsrc.trans h))))
        · exact Or.inr (List.mem_cons_of_mem d hsrc)
    · rw [if_neg hd]
      obtain ⟨hown, hall, hsrc⟩ := ih v
      refine ⟨hown, fun w hw => ?_, hsrc.imp_right (List.mem_cons_of_mem d)⟩
      rcases List.mem_cons.1 hw with rfl | hw
      · exact absurd rfl hd
      · exact hall w hw

theorem afterSubstitution_of_unfit {donors : List (Option Nat × Level)} {n : Nat} {y : Spot}
    (h : y.entry.state.unfit = true) : afterSubstitution donors n y = .l0 := if_pos h

theorem afterSubstitution_of_fit {donors : List (Option Nat × Level)} {n : Nat} {y : Spot}
    (h : y.entry.state.unfit = false) : afterSubstitution donors n y =
      donors.foldl (fun v d => if d.1 = some n then v.larger d.2 else v) y.level := if_neg (by simp [h])

/-! ### The nozzles of one head -/

theorem spotsFrom_getElem? {mode : Handover} {row : Nat} {part : Bool} {n column : Nat} {xs : List Nozzle}
    {ps : List Partner} {vs : List Level} {x : Nozzle} {p : Partner} {v : Level} (hx : xs[n]? = some x)
    (hp : ps[n]? = some p) (hv : vs[n]? = some v) :
    (spotsFrom mode row part column xs ps vs)[n]? =
      some ⟨x, p, v, if holds mode row (column + n) part x p then v else .l0⟩ := by
  induction n generalizing column xs ps vs with
  | zero =>
    obtain ⟨xs, rfl⟩ := List.head?_eq_some_iff.1 (List.head?_eq_getElem?.trans hx)
    obtain ⟨ps, rfl⟩ := List.head?_eq_some_iff.1 (List.head?_eq_getElem?.trans hp)
    obtain ⟨vs, rfl⟩ := List.head?_eq_some_iff.1 (List.head?_eq_getElem?.trans hv)
    rfl
  | succ n ih =>
    cases xs with
    | nil => exact absurd hx (by simp)
    | cons x' xs =>
    cases ps with
    | nil => exact absurd hp (by simp)
    | cons p' ps =>
    cases vs with
    | nil => exact absurd hv (by simp)
    | cons v' vs =>
    rw [spotsFrom, List.getElem?_cons_succ, ih (column := column + 1) hx hp hv]
    simp only [Nat.add_assoc, Nat.add_comm 1 n]

/-- The nozzle at a place of the head is that of the entries. -/
theorem entry_of_spotsFrom {mode : Handover} {row : Nat} {part : Bool} {column : Nat} {xs : List Nozzle}
    {ps : List Partner} {vs : List Level} {n : Nat} {y : Spot}
    (h : (spotsFrom mode row part column xs ps vs)[n]? = some y) : xs[n]? = some y.entry := by
  have hn := (List.getElem?_eq_some_iff.1 h).1
  rw [spotsFrom_length, lt_min_iff, lt_min_iff] at hn
  obtain ⟨hx, hp, hv⟩ := hn
  have hspot := spotsFrom_getElem? (mode := mode) (row := row) (part := part) (column := column)
    (List.getElem?_eq_getElem hx) (List.getElem?_eq_getElem hp) (List.getElem?_eq_getElem hv)
  rw [← Option.some.inj (hspot.symm.trans h), List.getElem?_eq_getElem hx]

theorem finishFrom_getElem? (f : BarFields) (donors : List (Option Nat × Level)) (k : Nat) (spots : List Spot) (n : Nat) :
    (finishFrom f donors k spots)[n]? = spots[n]?.map fun y =>
      (keepWetDrop .page f y.entry (trimmed y.entry (afterSubstitution donors (k + n) y)).1,
        (trimmed y.entry (afterSubstitution donors (k + n) y)).2) := by
  induction spots generalizing k n with
  | nil => rfl
  | cons y spots ih =>
    cases n with
    | zero => rfl
    | succ n =>
      rw [finishFrom, List.getElem?_cons_succ, List.getElem?_cons_succ, ih, Nat.add_right_comm, Nat.add_assoc]

section Share

variable (f : BarFields) (row first : Nat) (part : Bool) (xs : List Nozzle) (ps : List Partner) (vs : List Level)

/-- The nozzles of a head after the handover, and what their donors move. -/
def headSpots : List Spot := spotsFrom f.handover row part first xs ps vs

def headDonors : List (Option Nat × Level) := donorsFrom xs 0 (headSpots f row first part xs ps vs)

theorem headShare_getElem? (n : Nat) :
    let given := fun y : Spot => trimmed y.entry (afterSubstitution (headDonors f row first part xs ps vs) n y)
    (headShare f row first part xs ps vs).drops[n]? =
        (headSpots f row first part xs ps vs)[n]?.map (fun y => keepWetDrop .page f y.entry (given y).1) ∧
      (headShare f row first part xs ps vs).accs[n]? =
        (headSpots f row first part xs ps vs)[n]?.map fun y => (given y).2 := by
  have hout := finishFrom_getElem? f (headDonors f row first part xs ps vs) 0 (headSpots f row first part xs ps vs) n
  rw [Nat.zero_add] at hout
  refine ⟨?_, ?_⟩
  · refine List.getElem?_map.trans ((congrArg _ hout).trans ?_)
    exact Option.map_map ..
  · refine List.getElem?_map.trans ((congrArg _ hout).trans ?_)
    exact Option.map_map ..

end Share

/-- A nozzle that is neither good nor weak is given no level and no mark (R124, R128). -/
theorem keepWetDrop_of_unfit (kind : RowKind) (f : BarFields) {x : Nozzle} (hg : x.state ≠ .good) (hw : x.state ≠ .weak) :
    keepWetDrop kind f x .l0 = ⟨.l0, .plain⟩ :=
  keepWetDrop_of_not_due (Bool.eq_false_iff.2 fun hdue => by
    obtain ⟨_, ⟨hgood, _⟩ | ⟨hweak, _⟩⟩ := due_iff.1 hdue
    · exact hg hgood
    · exact hw hweak)

theorem unfit_iff {x : NozzleState} : x.unfit = true ↔ x ≠ .good ∧ x ≠ .weak := by
  rw [← Bool.not_eq_false, unfit_eq_false_iff, not_or]

theorem headShare_drop_of_unfit {f : BarFields} {row first : Nat} {part : Bool} {xs : List Nozzle} {ps : List Partner}
    {vs : List Level} {n : Nat} {x : Nozzle} {d : Drop}
    (hd : (headShare f row first part xs ps vs).drops[n]? = some d) (hx : xs[n]? = some x) (hg : x.state ≠ .good)
    (hw : x.state ≠ .weak) : d = ⟨.l0, .plain⟩ := by
  rw [(headShare_getElem? f row first part xs ps vs n).1, Option.map_eq_some_iff] at hd
  obtain ⟨y, hy, rfl⟩ := hd
  obtain rfl : x = y.entry := Option.some.inj (hx.symm.trans (entry_of_spotsFrom hy))
  dsimp only
  rw [afterSubstitution_of_unfit (unfit_iff.2 ⟨hg, hw⟩), trimmed_of_plain fun h => h.2.1 rfl]
  exact keepWetDrop_of_unfit .page f hg hw

/-! ### Pattern rows and gap rows (R136, R137) -/

theorem rowDrops_eq (kind : RowKind) (f : BarFields) (xs : List Nozzle) (vs : List Level) :
    rowDrops kind f xs vs = List.zipWith (fun x v => keepWetDrop kind f x (if x.state.unfit then .l0 else v)) xs vs := by
  induction xs generalizing vs with
  | nil => rfl
  | cons x xs ih =>
    cases vs with
    | nil => rfl
    | cons v vs => rw [rowDrops, List.zipWith_cons_cons, ih]

theorem rowDrops_getElem? {kind : RowKind} {f : BarFields} {xs : List Nozzle} {vs : List Level} {n : Nat} {x : Nozzle}
    {v : Level} (hx : xs[n]? = some x) (hv : vs[n]? = some v) :
    (rowDrops kind f xs vs)[n]? = some (keepWetDrop kind f x (if x.state = .good ∨ x.state = .weak then v else .l0)) := by
  rw [rowDrops_eq, List.getElem?_zipWith, hx, hv]
  by_cases h : x.state = .good ∨ x.state = .weak
  · simp [h, unfit_eq_false_iff.2 h]
  · simp [h, unfit_iff.2 (not_or.1 h)]

theorem rowDrops_drop_of_unfit {kind : RowKind} {f : BarFields} {xs : List Nozzle} {vs : List Level} {n : Nat}
    {x : Nozzle} {d : Drop} (hd : (rowDrops kind f xs vs)[n]? = some d) (hx : xs[n]? = some x) (hg : x.state ≠ .good)
    (hw : x.state ≠ .weak) : d = ⟨.l0, .plain⟩ := by
  have hn := (List.getElem?_eq_some_iff.1 hd).1
  rw [rowDrops_eq, List.length_zipWith, lt_min_iff] at hn
  rw [rowDrops_getElem? hx (List.getElem?_eq_getElem hn.2), if_neg (not_or.2 ⟨hg, hw⟩)] at hd
  exact (Option.some.inj hd).symm.trans (keepWetDrop_of_unfit kind f hg hw)

/-! ### The lanes that an assignment serves (R117) -/

theorem deliver_lane_of_none {s : State} {blank : Bool} {out : List (AssignHead × HeadShare)} {h : LaneId}
    (hnone : ∀ hd share, (hd, share) ∈ out → hd.lane = h → hd.takesPart = false) :
    (s.deliver blank out).lane h = s.lane h := by
  induction out generalizing s with
  | nil => rfl
  | cons x out ih =>
    refine (ih fun hd share hx => hnone hd share (List.mem_cons_of_mem x hx)).trans ?_
    by_cases hp : x.1.takesPart = true
    · have hne : h ≠ x.1.lane := fun heq => by simp [hnone x.1 x.2 List.mem_cons_self heq.symm] at hp
      rw [if_pos hp, modLane_lane_ne _ _ hne]
    · rw [if_neg hp]

theorem deliver_lane_of_mem {s : State} {blank : Bool} {out : List (AssignHead × HeadShare)}
    (hnodup : (out.map (·.1.lane)).Nodup) {hd : AssignHead} {share : HeadShare} (hmem : (hd, share) ∈ out)
    (hpart : hd.takesPart = true) : (s.deliver blank out).lane hd.lane = (s.lane hd.lane).receive share blank := by
  induction out generalizing s with
  | nil => exact absurd hmem (by simp)
  | cons x out ih =>
    rw [List.map_cons, List.nodup_cons] at hnodup
    obtain ⟨hnot, hnodup⟩ := hnodup
    have hlanes (g : AssignHead) (share' : HeadShare) (hg : (g, share') ∈ out) : x.1.lane ≠ g.lane := fun heq =>
      hnot (heq ▸ List.mem_map.2 ⟨(g, share'), hg, rfl⟩)
    rcases List.mem_cons.1 hmem with rfl | hmem
    · refine (deliver_lane_of_none fun g share' hg heq => absurd heq.symm (hlanes g share' hg)).trans ?_
      rw [if_pos hpart, modLane_lane_same]
    · refine (ih hnodup hmem).trans (congrArg (fun ln : Lane => ln.receive share blank) ?_)
      split
      · exact modLane_lane_ne _ _ (hlanes hd share hmem).symm
      · rfl

theorem sharesOf_lanes (s : State) (b : BarId) (pl : PageLoad) (st : PartStatus) :
    (s.sharesOf b pl st).map (·.1.lane) = (slotOrder s.assigns b).map Prod.fst := by
  have hheads : (s.sharesOf b pl st).map Prod.fst = s.assignHeads b pl.view pl.page pl.row := shares_heads ..
  have hlanes := congrArg (List.map AssignHead.lane) hheads
  rw [List.map_map, State.assignHeads, List.map_map] at hlanes
  exact hlanes

theorem assignPage_lanes (s : State) (b : BarId) (pl : PageLoad) (st : PartStatus) :
    (s.assignPage b pl st).lanes = (s.deliver (st == .blank) (s.sharesOf b pl st)).lanes := by
  rw [assignPage_unfold]
  dsimp only
  split <;> rfl

theorem assignPage_lane_receives {s : State} {b : BarId} {pl : PageLoad} {st : PartStatus} {hd : AssignHead}
    {share : HeadShare} (hmem : (hd, share) ∈ s.sharesOf b pl st) (hpart : hd.takesPart = true) :
    (s.assignPage b pl st).lane hd.lane = (s.lane hd.lane).receive share (st == .blank) := by
  have hnodup : ((s.sharesOf b pl st).map (·.1.lane)).Nodup := sharesOf_lanes s b pl st ▸ slotOrder_lanes_nodup _ b
  rw [State.lane, assignPage_lanes]
  exact deliver_lane_of_mem hnodup hmem hpart

theorem receive_eq (ln : Lane) (share : HeadShare) (st : PartStatus) : ln.receive share (st == .blank) = { ln with
    nozzles := List.zipWith (fun x acc => { x with acc := acc }) ln.nozzles share.accs
    load := ln.load.map fun ld =>
      { ld with drops := share.drops, stage := if st = .blank then .transfer else .readWait } } := by
  simp only [Lane.receive, setAccs, beq_iff_eq]

/-- Whether an overlap column goes to the lower head, by the bar's handover (R121). -/
def lowerHolds (mode : Handover) (row column j w : Nat) : Bool :=
  match mode with
  | .midpoint => decide (j < w / 2)
  | .interleave => decide ((column + row) % 2 = 0)

theorem goesToLower_eq (mode : Handover) (row column j w : Nat) :
    goesToLower mode row column j w = lowerHolds mode row column j w := by
  cases mode with
  | midpoint => rfl
  | interleave => exact Bool.beq_eq_decide_eq _ _

theorem overlap_holds (mode : Handover) (row column j w : Nat) (a b : Nozzle) (partA partB : Bool) :
    let atA := holds mode row column partA a (.right j w partB b)
    let atB := holds mode row column partB b (.left j w partA a)
    (partA = true → partB = true → atB = !atA ∧
      (atA = true ↔ if lowerHolds mode row column j w then ¬(a.state.unfit = true ∧ b.state = .good)
        else (b.state.unfit = true ∧ a.state = .good))) ∧
    (partA = true → partB = false → atA = true ∧ atB = false) ∧
    (partA = false → partB = true → atA = false ∧ atB = true) ∧
    (partA = false → partB = false → atA = false ∧ atB = false) := by
  dsimp only
  refine ⟨?_, ?_, ?_, ?_⟩
  · rintro rfl rfl
    exact ⟨holds_left_of_both .., goesToLower_eq mode row column j w ▸ holds_right_of_both ..⟩
  all_goals
    rintro rfl rfl
    simp [holds_right, holds_left]

/-- Settles O60: the heads of a bar in slot order, the partners of a column, which nozzle holds it, substitution, and
the assignment of a page row. -/
theorem overlapPixelsAndUnfitNozzles : Obligations.OverlapPixelsAndUnfitNozzles := by
  refine ⟨fun s b => ⟨fun h c hx => ?_, ?_, fun h a ha hb hslot => ?_, fun v page row => ⟨rfl, fun h => takesPart_iff⟩⟩,
    shares_getElem?, fun left right own => partnersOf_fit,
    fun part first => ⟨partLevels_length part first, fun n hn => ⟨?_, ?_⟩⟩,
    fun mode row column a part => holds_sole mode row column a part, fun mode row column j w a b partA partB => ?_,
    fun xs n x m => substituteOf_eq_some, fun xs spots => ⟨donorsFrom_length xs 0 spots,
      fun dest v => mem_donorsFrom, fun n y => ⟨afterSubstitution_of_unfit, fun h => ?_⟩⟩,
    fun f row first part xs ps vs => ⟨fun n x p v hx hp hv => ?_, rfl, ?_⟩, fun s b pl st => ⟨?_, ?_, ?_, ?_⟩,
    fun f row first part xs ps vs n x d => headShare_drop_of_unfit,
    fun kind f xs vs n x => ⟨fun v => rowDrops_getElem?, fun d => rowDrops_drop_of_unfit⟩⟩
  case refine_1 =>
    obtain ⟨a, ha, hrest⟩ := assigned_of_mem_slotOrder hx
    exact ⟨a, (assigns_get s h).symm.trans ha, hrest⟩
  case refine_2 =>
    refine (slotOrder_pairwise s.assigns b).imp fun hlt a z ha hz => ?_
    rwa [slotOf_eq ((assigns_get s _).trans ha), slotOf_eq ((assigns_get s _).trans hz)] at hlt
  case refine_3 =>
    obtain ⟨g, c, z, hg, hz, hzslot⟩ := exists_mem_slotOrder ((assigns_get s h).trans ha) hslot
    exact ⟨g, c, z, hb ▸ hg, (assigns_get s g).symm.trans hz, hzslot⟩
  case refine_4 =>
    rintro rfl
    rw [partLevels_getElem? hn]
    rfl
  case refine_5 =>
    rintro x rfl
    rw [partLevels_getElem? hn]
    rfl
  case refine_6 => exact overlap_holds mode row column j w a b partA partB
  case refine_7 =>
    rw [afterSubstitution_of_fit h]
    exact foldl_larger n _ y.level
  case refine_8 =>
    have hspot := spotsFrom_getElem? (mode := f.handover) (row := row) (part := part) (column := first) hx hp hv
    obtain ⟨hdrops, haccs⟩ := headShare_getElem? f row first part xs ps vs n
    refine ⟨hspot, hdrops.trans ?_, haccs.trans ?_⟩ <;> rw [headSpots, hspot] <;> rfl
  case refine_9 =>
    refine congrArg (_ + ·) (List.countP_congr fun y _ => ?_)
    obtain ⟨entry, partner, pixel, level⟩ := y
    rw [Bool.and_comm]
    cases partner <;> exact Iff.rfl
  case refine_10 => exact assignPage_eq s b pl st
  case refine_11 => exact assignPage_pages s b pl st
  case refine_12 => exact fun hd share hmem hpart => (assignPage_lane_receives hmem hpart).trans (receive_eq _ share st)
  case refine_13 =>
    intro h hnone
    rw [State.lane, assignPage_lanes]
    exact deliver_lane_of_none hnone

end Sys2Proof.Machine
end

section
/-! The row a line gives a bar, and what it is to begin a load (R32, R79, R81, R82, R163). -/

namespace Sys2Proof.Machine

/-! ### The row of a line (R32, R79) -/

theorem rowAt_eq_some {p : Page} {b : BarId} {offset : Nat} {line : Line} {r : Nat} :
    p.rowAt b offset line = some r ↔ p.Gives b offset line r := by
  unfold Page.rowAt Page.Gives
  cases p.trigger with
  | none => simp
  | some t =>
    cases p.progress.get b with
    | none => simp
    | some n =>
      simp only [Option.ite_none_right_eq_some, Option.some.injEq, ne_eq, reduceCtorEq, not_false_eq_true, true_and,
        exists_eq_left']
      constructor
      · rintro ⟨⟨hprinting, hlt⟩, rfl⟩
        exact ⟨hprinting, hlt, rfl⟩
      · rintro ⟨hprinting, hlt, rfl⟩
        exact ⟨⟨hprinting, hlt⟩, rfl⟩

theorem rowAt_eq_none {p : Page} {b : BarId} {offset : Nat} {line : Line} :
    p.rowAt b offset line = none ↔ ∀ r, ¬p.Gives b offset line r := by
  simp only [← rowAt_eq_some, Option.eq_none_iff_forall_ne_some, ne_eq]

section Line

variable {s : State} {b : BarId} {line : Line}

/-- The oldest page that gives a row gives the bar its row. -/
theorem pageRow_of_first {older younger : List Page} {p : Page} {r : Nat}
    (hpages : s.queue.pages = older ++ p :: younger) (hp : p.Gives b (s.bar b).offset line r)
    (holder : ∀ o ∈ older, ∀ r', ¬o.Gives b (s.bar b).offset line r') : s.pageRow b line = some (p.id, r) := by
  have hnone : older.findSome? (fun p => (p.rowAt b (s.bar b).offset line).map fun r => (p.id, r)) = none :=
    List.findSome?_eq_none_iff.2 fun o ho => by rw [rowAt_eq_none.2 (holder o ho), Option.map_none]
  rw [State.pageRow, hpages, List.findSome?_append, hnone, Option.none_or, List.findSome?_cons, rowAt_eq_some.2 hp,
    Option.map_some]

theorem pageRow_of_none (h : ∀ p ∈ s.queue.pages, ∀ r, ¬p.Gives b (s.bar b).offset line r) : s.pageRow b line = none :=
  List.findSome?_eq_none_iff.2 fun p hp => by rw [rowAt_eq_none.2 (h p hp), Option.map_none]

end Line

/-! ### Steps 1 and 2 (R68, R80) -/

/-- A bar's fields as set take effect (R68). -/
def State.copyFields (s : State) (b : BarId) : State := s.modBar b fun x => { x with inEffect := x.asSet }

theorem copyFields_offset (s : State) (b : BarId) : ((s.copyFields b).bar b).offset = (s.bar b).offset := by
  rw [State.copyFields, modBar_bar_same]

theorem passedRow_copyFields (s : State) (b : BarId) : (s.copyFields b).passedRow b = s.pageRow b (s.position.line - 1) := by
  rw [State.passedRow, State.pageRow, copyFields_offset]
  rfl

theorem passWork_of_row {s : State} {b : BarId} {page row : Nat} (h : s.pageRow b (s.position.line - 1) = some (page, row)) :
    s.passWork b = ((s.copyFields b).passPage b page row).takeParks b true := by
  have hrow : (s.copyFields b).passedRow b = some (page, row) := (passedRow_copyFields s b).trans h
  rw [State.copyFields] at hrow
  simp only [State.passWork, hrow, State.copyFields]

theorem passWork_of_none {s : State} {b : BarId} (h : s.pageRow b (s.position.line - 1) = none) :
    s.passWork b = ((s.copyFields b).gapAction b).takeParks b false := by
  have hrow : (s.copyFields b).passedRow b = none := (passedRow_copyFields s b).trans h
  rw [State.copyFields] at hrow
  simp only [State.passWork, hrow, State.copyFields]

/-! ### Step 3: what a bar begins (R163) -/

theorem beginLoads_of_row {s : State} {b : BarId} {page row : Nat} (h : s.pageRow b s.position.line = some (page, row)) :
    s.beginLoads b = s.beginPage b page row := by
  have hrow : s.comingRow b = some (page, row) := h
  simp only [State.beginLoads, hrow]

theorem beginLoads_of_play {s : State} {b : BarId} {g : GapPlay} (h : s.pageRow b s.position.line = none)
    (hg : (s.bar b).gapPlay = some g) : s.beginLoads b = s.beginPattern b g := by
  have hrow : s.comingRow b = none := h
  simp only [State.beginLoads, hrow, hg]

theorem beginLoads_of_idle {s : State} {b : BarId} (h : s.pageRow b s.position.line = none)
    (hg : (s.bar b).gapPlay = none) (hslot : ∀ id, (s.bar b).checkSlot ≠ some (.waiting id)) :
    s.beginLoads b = s.beginGap b := by
  have hrow : s.comingRow b = none := h
  simp only [State.beginLoads, hrow, hg]

/-- The play of a check that starts. -/
def CheckRec.play (r : CheckRec) : GapPlay := ⟨r.name, .check, 0, .check⟩

theorem startCheck_of_some {s : State} {b : BarId} {id : Nat} {r : CheckRec}
    (h : s.library.checks.find? (·.runsAt b id) = some r) :
    s.startCheck b id = (s.modCheck b id fun r => r.modBar b fun x => { x with outcome := .playing }).modBar b fun x =>
      { x with checkSlot := some (.playing id 0), gapPlay := some r.play } := by
  simp only [State.startCheck, h]
  rfl

theorem beginLoads_of_check {s : State} {b : BarId} {id : Nat} {r : CheckRec} (h : s.pageRow b s.position.line = none)
    (hg : (s.bar b).gapPlay = none) (hslot : (s.bar b).checkSlot = some (.waiting id))
    (hr : s.library.checks.find? (·.runsAt b id) = some r) :
    s.beginLoads b = (s.startCheck b id).beginPattern b r.play := by
  have hrow : s.comingRow b = none := h
  have hplay : ((s.startCheck b id).bar b).gapPlay = some r.play := by
    rw [startCheck_of_some hr]
    exact congrArg Bar.gapPlay (modBar_bar_same ..)
  simp only [State.beginLoads, hrow, hg, hslot, hplay]

/-! ### Pattern rows, gap rows and page rows (R81, R136, R137) -/

theorem patternRow_getElem? (s : State) (m : Nat) {n : Nat} (hn : n < 1024) : (s.patternRow m)[n]? =
    some (packedLevel (Memory.read s.library.memory (256 * m + n / 4)) (n % 4)) := by
  have hbyte := readRun_getElem? s.library.memory (rowAddress m) 256 (n / 4) (by omega)
  have h := unpackLevels_getElem? (n := 1024) hbyte (Nat.mod_lt n (by decide)) (by omega)
  rwa [Nat.div_add_mod] at h

section Begin

variable (s : State) (b : BarId)

/-- The head loads of a row that is assigned as its load begins. -/
def State.plainLoad (row : LoadRow) (kind : RowKind) (levels : List Level) (h : LaneId) : HeadLoad :=
  ⟨row, .transfer, 0, 0, rowDrops kind (s.bar b).inEffect (s.viewNozzles (s.barView b) h) levels⟩

theorem beginPlain_eq (next : BarNext) (row : LoadRow) (kind : RowKind) (levels : List Level) :
    s.beginPlain b next row kind levels =
      (s.modBar b fun x => { x with next := next }).setLanes (s.beginPlain b next row kind levels).lanes := by
  have h := beginHeads_eq s b (s.plainLoad b row kind levels)
  exact (congrArg (fun u : State => u.modBar b fun x => { x with next := next }) h).trans rfl

theorem beginPlain_begins (next : BarNext) (row : LoadRow) (kind : RowKind) (levels : List Level) :
    s.LoadsBegun (s.beginPlain b next row kind levels) b (s.plainLoad b row kind levels) :=
  beginHeads_begins s b (s.plainLoad b row kind levels)

theorem beginPlain_bar (next : BarNext) (row : LoadRow) (kind : RowKind) (levels : List Level) :
    (s.beginPlain b next row kind levels).bar b = { s.bar b with next := next } := by
  rw [beginPlain_eq]
  exact modBar_bar_same s b fun x => { x with next := next }

theorem beginPattern_of_some {g : GapPlay} {e : Pattern} (h : s.pattern g.name = some e) :
    s.beginPattern b g = s.beginPlain b .pattern .pattern g.kind.rowKind (s.patternRow (e.start + g.next)) := by
  simp only [State.beginPattern, h]

theorem beginPattern_frame (g : GapPlay) : (s.beginPattern b g).library = s.library ∧
    (s.beginPattern b g).bar b = { s.bar b with next := .pattern } := by
  refine ⟨?_, beginPlain_bar s b .pattern .pattern _ _⟩
  unfold State.beginPattern
  dsimp only
  rw [beginPlain_eq]
  rfl

/-- A bar as it begins the load of a page row, its heads included, before the row is handed to it. -/
def State.pageBegun (page row : Nat) : State :=
  (s.modBar b fun x => { x with next := .page ⟨page, row, s.barView b, x.inEffect, true, 0, 0, false⟩ }).beginHeads b
    fun _ => pageHeadLoad page row

theorem beginPage_eq (page row : Nat) : s.beginPage b page row =
    (((s.truncatePlay b).switchBar b page row).pageBegun b page row).handTo page row b := rfl

theorem pageBegun_eq (page row : Nat) : s.pageBegun b page row =
    (s.modBar b fun x => { x with
      next := .page
        { page := page, row := row, view := s.barView b, fields := x.inEffect, waiting := true
          lost := 0, substituted := 0, added := false } }).setLanes (s.pageBegun b page row).lanes :=
  beginHeads_eq _ b _

theorem pageBegun_begins (page row : Nat) :
    s.LoadsBegun (s.pageBegun b page row) b fun _ => ⟨.page page row, .waitingRow, 0, 0, []⟩ :=
  beginHeads_begins (s.modBar b _) b _

end Begin

/-! ### The heads of a bar that is handed a row (R4, R82, R117) -/

theorem receive_assign (ln : Lane) (share : HeadShare) (blank : Bool) : (ln.receive share blank).assign = ln.assign := rfl

theorem deliver_assigns (s : State) (blank : Bool) (out : List (AssignHead × HeadShare)) :
    (s.deliver blank out).assigns = s.assigns := by
  induction out generalizing s with
  | nil => rfl
  | cons x out ih =>
    refine (ih _).trans (PerLane.ext_get _ _ fun g => ?_)
    rw [assigns_get, assigns_get]
    split
    · by_cases hg : g = x.1.lane
      · rw [hg, modLane_lane_same, receive_assign]
      · rw [modLane_lane_ne _ _ hg]
    · rfl

theorem handTo_assigns (s : State) (page row : Nat) (b : BarId) : (s.handTo page row b).assigns = s.assigns := by
  by_cases h : ∃ pl x, s.RowIsReady page row b pl x
  · obtain ⟨pl, x, h⟩ := h
    rw [handTo_of_ready h]
    refine Eq.trans ?_ (deliver_assigns s (x.status == .blank) (s.sharesOf b pl x.status))
    exact congrArg (PerLane.map fun ln => ln.assign) (assignPage_lanes s b pl x.status)
  · rw [handTo_of_not_ready fun pl x hx => h ⟨pl, x, hx⟩]

/-- A bar's row moves no head of another bar. -/
theorem handTo_lane_ne {s : State} {h : LaneId} {a : Assign} {b : BarId} (page row : Nat) (ha : (s.lane h).assign = some a)
    (hb : a.bar ≠ b) : (s.handTo page row b).lane h = s.lane h := by
  by_cases hr : ∃ pl x, s.RowIsReady page row b pl x
  · obtain ⟨pl, x, hr⟩ := hr
    rw [handTo_of_ready hr, State.lane, assignPage_lanes]
    refine deliver_lane_of_none fun hd share hmem hlane => ?_
    have hin : hd.lane ∈ (s.sharesOf b pl x.status).map (·.1.lane) := List.mem_map.2 ⟨(hd, share), hmem, rfl⟩
    rw [sharesOf_lanes, hlane, List.mem_map] at hin
    obtain ⟨⟨g, c⟩, hg, rfl⟩ := hin
    obtain ⟨a', ha', hbar, _⟩ := assigned_of_mem_slotOrder hg
    rw [assigns_get, ha] at ha'
    exact absurd (Option.some.inj ha' ▸ hbar) hb
  · rw [handTo_of_not_ready fun pl x hx => hr ⟨pl, x, hx⟩]

/-- What handing a row to other bars leaves of a bar's heads. -/
theorem handTo_foldl_lane {b : BarId} (page row : Nat) : ∀ {bs : List BarId} (s : State), b ∉ bs →
    (bs.foldl (fun u c => u.handTo page row c) s).assigns = s.assigns ∧
      ∀ h a, (s.lane h).assign = some a → a.bar = b →
        (bs.foldl (fun u c => u.handTo page row c) s).lane h = s.lane h
  | [], _, _ => ⟨rfl, fun _ _ _ _ => rfl⟩
  | c :: bs, s, hbs => by
    obtain ⟨hc, hbs⟩ := not_or.1 (mt List.mem_cons.2 hbs)
    obtain ⟨hassigns, hlane⟩ := handTo_foldl_lane page row (s.handTo page row c) hbs
    refine ⟨hassigns.trans (handTo_assigns s page row c), fun h a ha hb => ?_⟩
    have hfirst := handTo_lane_ne page row ha (hb.trans_ne hc)
    exact (hlane h a (hfirst.symm ▸ ha) hb).trans hfirst

theorem handTo_lane_of_ready {s : State} {page row : Nat} {b : BarId} {pl : PageLoad} {x : RowPart}
    (hready : s.RowIsReady page row b pl x) {h : LaneId} {c : Nat} (hx : (h, c) ∈ slotOrder s.assigns b)
    (hpart : (s.lane h).takesPart page row = true) :
    ∃ share, (s.handTo page row b).lane h = (s.lane h).receive share (x.status == .blank) := by
  obtain ⟨hpage, hrow⟩ : pl.page = page ∧ pl.row = row := ⟨hready.2.1, hready.2.2.1⟩
  have hheads : (s.sharesOf b pl x.status).map Prod.fst = s.assignHeads b pl.view pl.page pl.row := shares_heads ..
  have hmem : (⟨h, c, (s.lane h).takesPart pl.page pl.row, s.viewNozzles pl.view h⟩ : AssignHead) ∈
      (s.sharesOf b pl x.status).map Prod.fst := hheads ▸ List.mem_map.2 ⟨(h, c), hx, rfl⟩
  obtain ⟨⟨hd, share⟩, hout, rfl⟩ := List.mem_map.1 hmem
  rw [handTo_of_ready hready]
  exact ⟨share, assignPage_lane_receives hout (hpage ▸ hrow ▸ hpart)⟩

/-- A head of a bar that is handed the row its load waits for is given its drops, and its load goes on (R82). -/
theorem handRow_lane_of_ready {s : State} {page row : Nat} {b : BarId} {pl : PageLoad} {x : RowPart}
    (hready : s.RowIsReady page row b pl x) {h : LaneId} {c : Nat} {ld : HeadLoad} (hx : (h, c) ∈ slotOrder s.assigns b)
    (hactive : (s.lane h).head = .active) (hload : (s.lane h).load = some ld) (hrow : ld.row = .page page row) :
    ∃ drops, ((s.handRow page row).lane h).load = some
      { ld with drops := drops, stage := if x.status = .blank then .transfer else .readWait } := by
  obtain ⟨before, after, hbars, hbefore, hafter⟩ := barIds_split b
  obtain ⟨a, ha, hbar, _⟩ := assigned_of_mem_slotOrder hx
  rw [assigns_get] at ha
  have hframe := HandFrame.handTo_foldl page row before s
  have hub := handTo_foldl_bar_of_not_mem page row s hbefore
  obtain ⟨hassigns, hlanes⟩ := handTo_foldl_lane page row s hbefore
  have hlane := hlanes h a ha hbar
  have hfold : s.handRow page row = after.foldl (fun u c => u.handTo page row c)
      ((before.foldl (fun u c => u.handTo page row c) s).handTo page row b) := by
    rw [State.handRow, hbars, List.foldl_append, List.foldl_cons]
  generalize before.foldl (fun u c => u.handTo page row c) s = u at hframe hub hassigns hlane hfold
  have hready' : u.RowIsReady page row b pl x := by
    obtain ⟨hnext, hp, hr, hwait, r, hheld, hrest⟩ := hready
    refine ⟨by rw [hub, hnext], hp, hr, hwait, r, ?_, hrest⟩
    rw [State.row, hframe.ring]
    exact hheld
  obtain ⟨share, hshare⟩ := handTo_lane_of_ready hready' (hassigns ▸ hx)
    (takesPart_iff.2 ⟨hlane ▸ hactive, ld, hlane ▸ hload, hrow⟩)
  have hassign : ((u.handTo page row b).lane h).assign = some a := by
    rw [hshare, receive_assign, hlane, ha]
  rw [hfold, (handTo_foldl_lane page row _ hafter).2 h a hassign hbar, hshare, hlane, receive_eq, hload]
  exact ⟨share.drops, rfl⟩

/-- Settles O55: the row of a line, and the load each bar begins. -/
theorem ticksPassAndLoadByLine : Obligations.TicksPassAndLoadByLine := by
  intro s b
  refine ⟨?_, fun hnone => passWork_of_none (pageRow_of_none hnone), ?_,
    fun hnone g => beginLoads_of_play (pageRow_of_none hnone),
    fun hnone => beginLoads_of_idle (pageRow_of_none hnone), fun hnone hplay id r hslot hr => ?_,
    fun r id => runsAt_iff, fun m n => patternRow_getElem? s m, fun page row => ?_, fun g e he => ?_,
    ⟨beginPlain_eq s b .gap .gap .gap gapLevels, beginPlain_begins s b .gap .gap .gap gapLevels⟩,
    fun page row => ⟨fun pl x hready => ⟨handTo_of_ready hready, handRow_of_ready hready,
      fun h c ld => handRow_lane_of_ready hready⟩, handTo_of_not_ready⟩⟩
  · rintro p r ⟨hp, older, younger, hpages, holder⟩
    exact passWork_of_row (pageRow_of_first hpages hp holder)
  · rintro p r ⟨hp, older, younger, hpages, holder⟩
    exact beginLoads_of_row (pageRow_of_first hpages hp holder)
  · have hbegun := (beginLoads_of_check (pageRow_of_none hnone) hplay hslot hr).trans
      (congrArg (fun u : State => u.beginPattern b r.play) (startCheck_of_some hr))
    refine ⟨hbegun, ?_, ?_, ?_, ?_⟩
    · rw [hbegun]
      exact (beginPattern_frame _ b r.play).1
    all_goals
      rw [hbegun, (beginPattern_frame _ b r.play).2, modBar_bar_same] <;> rfl
  · exact ⟨_, beginPage_eq s b page row, pageBegun_eq _ b page row, pageBegun_begins _ b page row⟩
  · obtain ⟨name, kind, next, source⟩ := g
    dsimp only
    rw [beginPattern_of_some s b he]
    cases kind with
    | spit => exact ⟨beginPlain_eq .., beginPlain_begins s b .pattern .pattern .spit _⟩
    | check => exact ⟨beginPlain_eq .., beginPlain_begins s b .pattern .pattern .check _⟩

end Sys2Proof.Machine
end

section
/-! SUPPORT. Parks at a tick, the truncation of a play, and the end of a check at a bar (R77, R164, R166, R168). -/

namespace Sys2Proof.Machine

/-! ### Parks (R77) -/

theorem onBar_iff {ln : Lane} {b : BarId} : ln.onBar b = true ↔ ∃ a, ln.assign = some a ∧ a.bar = b := by
  unfold Lane.onBar
  cases ln.assign <;> simp

theorem lanesOf_nodup (s : State) (b : BarId) : (s.lanesOf b).Nodup := (by decide : laneIds.Nodup).filter _

theorem mem_lanesOf {s : State} {b : BarId} {h : LaneId} :
    h ∈ s.lanesOf b ↔ ∃ a, (s.lane h).assign = some a ∧ a.bar = b := by
  rw [State.lanesOf, List.mem_filter, onBar_iff]
  exact and_iff_right (mem_laneIds h)

theorem currentPage_isNone_iff {s : State} {b : BarId} : (s.currentPage b).isNone = true ↔
    ∀ q ∈ s.queue.pages, q.state = .printing → ∀ n, q.progress.get b = some n → q.rowCount ≤ n := by
  have hcurrent (q : Page) : (¬q.IsCurrentFor b) ↔ (q.state = .printing → ∀ n, q.progress.get b = some n → q.rowCount ≤ n) := by
    simp only [Page.IsCurrentFor, not_and, not_exists, Nat.not_lt]
  simp only [← hcurrent, isCurrentFor_iff, Option.isNone_iff_eq_none]
  exact List.find?_eq_none

/-- Whether a head's pending park is due at a tick (R77). -/
def State.ParkIsDue (s : State) (b : BarId) (passed : Bool) (h : LaneId) : Prop :=
  ∃ now, (s.lane h).park = some now ∧ (s.lane h).head = .active ∧
    (now = true ∨ (passed = false ∧ ∀ q ∈ s.queue.pages, q.state = .printing →
      ∀ n, q.progress.get b = some n → q.rowCount ≤ n))

theorem parkIsDue_iff {s : State} {b : BarId} {passed : Bool} {h : LaneId} : s.ParkIsDue b passed h ↔
    ∃ now, (s.lane h).park = some now ∧
      ((s.lane h).head = .active ∧ (now || (!passed && (s.currentPage b).isNone)) = true) := by
  simp only [State.ParkIsDue, ← currentPage_isNone_iff, Bool.or_eq_true, Bool.and_eq_true, Bool.not_eq_true']

theorem takePark_of_due {s : State} {b : BarId} {passed : Bool} {h : LaneId} (hdue : s.ParkIsDue b passed h) :
    s.takePark b passed h = (s.leaveActive h (.settling .parked)).modLane h fun x =>
      { x with park := none, settleTimer := some x.warmTime } := by
  obtain ⟨now, hpark, hdue⟩ := parkIsDue_iff.1 hdue
  simp only [State.takePark, hpark]
  exact if_pos hdue

theorem takePark_of_not_due {s : State} {b : BarId} {passed : Bool} {h : LaneId} (hdue : ¬s.ParkIsDue b passed h) :
    s.takePark b passed h = s := by
  unfold State.takePark
  split
  next now hpark => exact if_neg fun hc => hdue (parkIsDue_iff.2 ⟨now, hpark, hc⟩)
  next => rfl

/-! ### The end of a check at a bar (R166, R168) -/

/-- The record of a check that has ended at a bar. -/
def CheckRec.endedAt (r : CheckRec) (b : BarId) (o : CheckOutcome) (n : Nat) : CheckRec :=
  (r.modBar b fun x => { x with outcome := o, unprinted := n }).close

theorem endedAt_bars (r : CheckRec) (b : BarId) (o : CheckOutcome) (n : Nat) :
    r.endedAt b o n = { r with
      bars := r.bars.set b ((r.bars.get b).map fun x => { x with outcome := o, unprinted := n })
      ended := (r.endedAt b o n).ended } := rfl

/-- Whether a check no longer runs at a bar, or is not for it. -/
def barEnded : Option CheckBar → Bool
  | some x => !x.running
  | none => true

/-- Whether a check ended WHOLE at a bar, or is not for it. -/
def barWhole : Option CheckBar → Bool
  | some x => x.outcome == .whole
  | none => true

theorem barEnded_iff {y : Option CheckBar} :
    barEnded y = true ↔ ∀ x, y = some x → x.outcome = .whole ∨ x.outcome = .truncated := by
  cases y with
  | none => simp [barEnded]
  | some x =>
    have hx : x.running = false ↔ x.outcome = .whole ∨ x.outcome = .truncated := by
      rw [← Bool.not_eq_true, running_iff]
      cases x.outcome <;> simp
    simp [barEnded, hx]

theorem barWhole_iff {y : Option CheckBar} : barWhole y = true ↔ ∀ x, y = some x → x.outcome = .whole := by
  cases y <;> simp [barWhole]

theorem close_ended_iff {r : CheckRec} : r.close.ended = true ↔
    ∀ g x, r.close.bars.get g = some x → x.outcome = .whole ∨ x.outcome = .truncated := by
  have hended : r.close.ended = r.bars.toList.all barEnded := rfl
  have hbars : r.close.bars = r.bars := rfl
  rw [hended, hbars, all_toList_iff]
  exact forall_congr' fun g => barEnded_iff

theorem endedAt_ended_iff {r : CheckRec} {b : BarId} {o : CheckOutcome} {n : Nat} : (r.endedAt b o n).ended = true ↔
    ∀ g x, (r.endedAt b o n).bars.get g = some x → x.outcome = .whole ∨ x.outcome = .truncated := close_ended_iff

theorem status_eq (r : CheckRec) : r.status = if r.bars.toList.all barWhole = true then .ok else .failed := rfl

theorem all_barWhole_iff {r : CheckRec} :
    r.bars.toList.all barWhole = true ↔ ∀ g x, r.bars.get g = some x → x.outcome = .whole := by
  rw [all_toList_iff]
  exact forall_congr' fun g => barWhole_iff

theorem status_of_whole {r : CheckRec} (h : ∀ g x, r.bars.get g = some x → x.outcome = .whole) : r.status = .ok :=
  (status_eq r).trans (if_pos (all_barWhole_iff.2 h))

theorem status_of_not_whole {r : CheckRec} (h : ¬∀ g x, r.bars.get g = some x → x.outcome = .whole) :
    r.status = .failed :=
  (status_eq r).trans (if_neg (mt all_barWhole_iff.1 h))

theorem endedAt_barSet (r : CheckRec) (b : BarId) (o : CheckOutcome) (n : Nat) :
    (r.endedAt b o n).barSet = r.bars.map Option.isSome := by
  refine PerBar.ext_get _ _ fun g => ?_
  have hset : (r.endedAt b o n).barSet.get g =
      ((r.bars.set b ((r.bars.get b).map fun x => { x with outcome := o, unprinted := n })).get g).isSome :=
    PerBar.get_map ..
  rw [hset, PerBar.get_map]
  by_cases hg : g = b
  · rw [hg, PerBar.get_set_same, Option.isSome_map]
  · rw [PerBar.get_set_ne _ _ hg]

/-- A bar's check slot emptied, and its check's record replaced. -/
def State.keepRecord (s : State) (b : BarId) (id : Nat) (r : CheckRec) : State :=
  (s.modBar b fun x => { x with checkSlot := none }).setLibrary
    { s.library with checks := s.library.checks.map fun q => if q.runsAt b id then r else q }

section EndCheck

variable {s : State} {b : BarId} {id n : Nat} {r : CheckRec} (o : CheckOutcome)
  (hslot : (s.bar b).checkSlot = some (.playing id n)) (hr : s.library.checks.find? (·.runsAt b id) = some r)

include hslot hr

theorem endCheck_of_playing : s.endCheck b o =
    if (r.endedAt b o n).ended then (s.keepRecord b id (r.endedAt b o n)).checkDone (r.endedAt b o n)
    else s.keepRecord b id (r.endedAt b o n) := by
  simp only [State.endCheck, hslot]
  have hfind : (s.modBar b fun x => { x with checkSlot := none }).library.checks.find? (·.runsAt b id) = some r := hr
  simp only [hfind]
  rfl

end EndCheck

/-- A check that ends raises CHECKDONE. -/
def State.doneRaised (s : State) : State := (s.setFresh (s.fresh + 4)).raise .service .checkdone

theorem doneRaised_busy (s : State) : (s.doneRaised.link .service).busy = (s.link .service).busy := rfl

theorem checkDone_of_not_waiting {s : State} {r : CheckRec}
    (h : ∀ tag, (s.link .service).busy ≠ some (.waiting tag (.chkprint r.id r.barSet))) :
    s.checkDone r = s.doneRaised :=
  endWait_of_not_waiting (s := s.doneRaised) _ _ h

theorem checkDone_of_waiting {s : State} {r : CheckRec} {tag : Byte}
    (h : (s.link .service).busy = some (.waiting tag (.chkprint r.id r.barSet))) :
    s.checkDone r = (s.doneRaised.setBusy .service none).reply .service tag r.status (be8 r.id :: checkBlocks s.fresh r) :=
  endWait_of_waiting (s := s.doneRaised) _ _ h

/-! ### The truncation of a play (R164) -/

theorem truncatePlay_of_none {s : State} {b : BarId} (h : (s.bar b).gapPlay = none) : s.truncatePlay b = s := by
  simp only [State.truncatePlay, h]

theorem patternRows_of_some {s : State} {n : Name} {e : Pattern} (h : s.pattern n = some e) : s.patternRows n = e.rows := by
  simp only [State.patternRows, h]

theorem truncatePlay_of_some {s : State} {b : BarId} {g : GapPlay} {e : Pattern} (hg : (s.bar b).gapPlay = some g)
    (he : s.pattern g.name = some e) :
    let ended := (s.setLibrary
      { s.library with truncated := min 65535 (s.library.truncated + (e.rows - g.next)) }).modBar b fun x =>
        { x with gapPlay := none }
    s.truncatePlay b = if g.source = .check then ended.endCheck b .truncated else ended := by
  simp only [State.truncatePlay, hg, patternRows_of_some he]
  rfl

end Sys2Proof.Machine
end

section
/-! Parks, pattern rows, the truncation of a play and the end of a check. -/

namespace Sys2Proof.Machine

/-! ### A row of a play (R161, R165) -/

theorem modBar_id {s : State} {b : BarId} {f : Bar → Bar} (h : f (s.bar b) = s.bar b) : s.modBar b f = s := by
  have hbars : s.bars.set b (f (s.bar b)) = s.bars := by
    rw [h]
    exact PerBar.set_get_self s.bars b
  rw [State.modBar, hbars]
  rfl

theorem headOutcome_eq_fired_iff {suppressed : Bool} {ln : Lane} : headOutcome suppressed false ln = .fired ↔
    suppressed = false ∧ ∃ ld, ln.load = some ld ∧ ld.stage = .complete ∧ ln.fireOpen = false := by
  unfold headOutcome
  cases ln.load with
  | none => simp
  | some ld =>
    cases suppressed with
    | true =>
      have hquiet : (if ld.stage = .complete ∧ ¬ln.fireOpen = true then HeadOutcome.keepWet else .nothing) ≠ .fired := by
        split <;> simp
      simpa using hquiet
    | false => cases hopen : ln.fireOpen <;> by_cases h : ld.stage = .complete <;> simp [h]

theorem firesFull_iff {s : State} {b : BarId} {suppressed : Bool} : s.firesFull b suppressed = true ↔
    suppressed = false ∧ ∃ h ld, s.IsActiveAt b h ∧ (s.lane h).load = some ld ∧ ld.stage = .complete ∧
      (s.lane h).fireOpen = false := by
  simp only [State.firesFull, List.any_eq_true, mem_activeLanes, beq_iff_eq, headOutcome_eq_fired_iff]
  constructor
  · rintro ⟨h, hactive, hsuppressed, ld, hload⟩
    exact ⟨hsuppressed, h, ld, hactive, hload⟩
  · rintro ⟨hsuppressed, h, ld, hactive, hload⟩
    exact ⟨h, hactive, hsuppressed, ld, hload⟩

section Row

variable {s : State} {b : BarId} {g : GapPlay} {printed : Bool}

/-- The records of the checks after the row of a play: a line record at row 0 (R166). -/
def State.lineRecords (s : State) (b : BarId) (id next : Nat) : List CheckRec :=
  s.library.checks.map fun r =>
    if next = 0 ∧ r.runsAt b id then
      { r with bars := r.bars.set b ((r.bars.get b).map fun x => { x with line := some s.position.line }) }
    else r

theorem recordLine_of_page (h : g.source = .page) : s.recordLine b g = s := by
  simp only [State.recordLine, h]

theorem recordLine_of_check {id n : Nat} (h : g.source = .check) (hslot : (s.bar b).checkSlot = some (.playing id n)) :
    s.recordLine b g = s.setLibrary { s.library with checks := s.lineRecords b id g.next } := by
  cases hn : g.next with
  | zero => simp [State.recordLine, h, hslot, hn, State.modCheck, CheckRec.modBar, State.lineRecords]
  | succ k => simp [State.recordLine, h, hn, State.lineRecords, State.setLibrary]

theorem countRow_of_page (h : g.source = .page) : s.countRow b g printed = s := by
  have hcheck : ¬(g.source = .check ∧ ¬printed = true) := by simp [h]
  exact (if_neg hcheck).trans (recordLine_of_page h)

theorem countRow_of_check {id n : Nat} (h : g.source = .check) (hslot : (s.bar b).checkSlot = some (.playing id n)) :
    s.countRow b g printed =
      (s.setLibrary { s.library with checks := s.lineRecords b id g.next }).modBar b fun x =>
        { x with checkSlot := some (.playing id (if printed then n else n + 1)) } := by
  simp only [State.countRow, recordLine_of_check h hslot, h]
  cases printed with
  | true =>
    refine (if_neg (by simp)).trans (modBar_id ?_).symm
    exact congrArg (fun slot => { s.bar b with checkSlot := slot }) hslot.symm
  | false =>
    refine (if_pos (by simp)).trans ?_
    have hcount : ((s.bar b).checkSlot).map CheckSlot.countUnprinted = some (.playing id (n + 1)) := by
      rw [hslot]
      rfl
    exact congrArg (fun slot => (s.setLibrary { s.library with checks := s.lineRecords b id g.next }).setBars
      (s.bars.set b { s.bar b with checkSlot := slot })) hcount

/-- A row of a play that does not end it leaves the links' traffic, and so does every row of a page's play. -/
theorem countRow_traffic (s : State) (b : BarId) (g : GapPlay) (printed : Bool) :
    (s.countRow b g printed).sent = s.sent ∧ (s.countRow b g printed).links = s.links ∧
      (s.countRow b g printed).fresh = s.fresh := by
  have hline : (s.recordLine b g).sent = s.sent ∧ (s.recordLine b g).links = s.links ∧
      (s.recordLine b g).fresh = s.fresh := by
    unfold State.recordLine
    split <;> exact ⟨rfl, rfl, rfl⟩
  unfold State.countRow
  dsimp only
  split <;> exact hline

/-- The bar's play as it ends. -/
def State.playEnded (s : State) (b : BarId) : State := s.modBar b fun x => { x with gapPlay := none }

theorem advancePlay_of_lt (h : g.next + 1 < s.patternRows g.name) :
    s.advancePlay b g = s.modBar b fun x => { x with gapPlay := some { g with next := g.next + 1 } } := if_pos h

theorem advancePlay_of_page (h : ¬g.next + 1 < s.patternRows g.name) (hg : g.source = .page) :
    s.advancePlay b g = s.playEnded b :=
  (if_neg h).trans (if_neg (by simp [hg]))

theorem advancePlay_of_check (h : ¬g.next + 1 < s.patternRows g.name) (hg : g.source = .check) :
    s.advancePlay b g = (s.playEnded b).endCheck b .whole :=
  (if_neg h).trans (if_pos hg)

/-- The end of a check at a bar leaves the bar's play. -/
theorem endCheck_gapPlay (s : State) (b : BarId) (o : CheckOutcome) :
    ((s.endCheck b o).bar b).gapPlay = (s.bar b).gapPlay := by
  have hdone (u : State) (r : CheckRec) : (u.checkDone r).bars = u.bars := endWait_bars ..
  have hslot : ((s.modBar b fun x => { x with checkSlot := none }).bar b).gapPlay = (s.bar b).gapPlay := by
    rw [modBar_bar_same]
  unfold State.endCheck
  split
  · dsimp only
    split
    · split
      · exact (congrArg (fun x : PerBar Bar => (x.get b).gapPlay) (hdone _ _)).trans hslot
      · exact hslot
    · exact hslot
  · rfl

theorem playEnded_gapPlay (s : State) (b : BarId) : ((s.playEnded b).bar b).gapPlay = none := by
  rw [State.playEnded, modBar_bar_same]

theorem advancePlay_gapPlay (s : State) (b : BarId) (g : GapPlay) : ((s.advancePlay b g).bar b).gapPlay =
    if g.next + 1 < s.patternRows g.name then some { g with next := g.next + 1 } else none := by
  split
  next h => rw [advancePlay_of_lt h, modBar_bar_same]
  next h =>
    cases hg : g.source with
    | page => rw [advancePlay_of_page h hg, playEnded_gapPlay]
    | check => rw [advancePlay_of_check h hg, endCheck_gapPlay, playEnded_gapPlay]

/-- A row that ends no check sends nothing. -/
theorem advancePlay_traffic (h : g.source = .page ∨ g.next + 1 < s.patternRows g.name) :
    (s.advancePlay b g).sent = s.sent ∧ (s.advancePlay b g).links = s.links ∧
      (s.advancePlay b g).library = s.library ∧
      ((s.advancePlay b g).bar b).checkSlot = (s.bar b).checkSlot := by
  by_cases hlt : g.next + 1 < s.patternRows g.name
  · rw [advancePlay_of_lt hlt]
    exact ⟨rfl, rfl, rfl, by rw [modBar_bar_same]⟩
  · rw [advancePlay_of_page hlt (h.resolve_right hlt)]
    exact ⟨rfl, rfl, rfl, by rw [State.playEnded, modBar_bar_same]⟩

end Row

/-! ### A tick at which a bar passes no page row (R79, R90) -/

section Gap

variable {s : State} {b : BarId}

/-- A bar after its row: it has no load. -/
def State.barIdle (s : State) (b : BarId) : State := s.modBar b fun x => { x with next := .idle }

theorem barIdle_bar (s : State) (b : BarId) : (s.barIdle b).bar b = { s.bar b with next := .idle } := modBar_bar_same ..

theorem gapAction_of_gap (h : (s.bar b).next = .gap) : s.gapAction b = (s.tickHeads b .gap none false false).barIdle b := by
  simp only [State.gapAction, h]
  rfl

theorem gapAction_of_nothing (hgap : (s.bar b).next ≠ .gap)
    (hpattern : (s.bar b).next = .pattern → (s.bar b).gapPlay = none) :
    s.gapAction b = (s.tickHeads b .gap none false true).barIdle b := by
  unfold State.gapAction
  dsimp only
  split
  next g hn hg => exact absurd (hg.symm.trans (hpattern hn)) (by simp)
  next hn => exact absurd hn hgap
  next => rfl

variable {g : GapPlay}

/-- Whether Suppress takes the rows of a play (R165). -/
def State.suppresses (s : State) (g : GapPlay) : Bool := s.queue.suppress && g.kind == .check

theorem suppresses_eq_false_iff : s.suppresses g = false ↔ s.queue.suppress = false ∨ g.kind = .spit := by
  unfold State.suppresses
  cases g.kind <;> simp

/-- The heads of a bar after a row of its play, and the row counted. -/
def State.playFired (s : State) (b : BarId) (g : GapPlay) : State :=
  s.tickHeads b g.kind.rowKind none (s.suppresses g) false

def State.playCounted (s : State) (b : BarId) (g : GapPlay) : State :=
  (s.playFired b g).countRow b g (s.firesFull b (s.suppresses g))

theorem gapAction_of_play (hnext : (s.bar b).next = .pattern) (hg : (s.bar b).gapPlay = some g) :
    s.gapAction b = ((s.playCounted b g).advancePlay b g).barIdle b := by
  simp only [State.gapAction, hnext, hg, playPattern_eq]
  rfl

theorem playFired_frame (s : State) (b : BarId) (g : GapPlay) : TickFrame s (s.playFired b g) :=
  headsAct_frame (tickHeads_acts s b g.kind.rowKind none (s.suppresses g) false)

theorem playFired_queue (s : State) (b : BarId) (g : GapPlay) : (s.playFired b g).queue = s.queue := by
  obtain ⟨heads, _, _, hfold⟩ := tickHeads_acts s b g.kind.rowKind none (s.suppresses g) false
  rw [State.playFired, hfold]
  exact foldl_tickHead_keeps (fun u => u.queue = s.queue) _ _ _ _ _
    (fun u h hu => (tickHead_queue u _ _ _ _ h).trans hu) heads s rfl

theorem playFired_bar (s : State) (b c : BarId) (g : GapPlay) : (s.playFired b g).bar c = s.bar c :=
  congrArg (PerBar.get · c) (playFired_frame s b g).bars

theorem playCounted_frame (s : State) (b : BarId) (g : GapPlay) : PlayFrame b (s.playFired b g) (s.playCounted b g) :=
  .countRow _ b g _

theorem playCounted_patternRows {e : Pattern} (he : s.pattern g.name = some e) :
    (s.playCounted b g).patternRows g.name = e.rows := by
  refine patternRows_of_some (Eq.trans ?_ he)
  rw [State.pattern, (playCounted_frame s b g).directory, (playFired_frame s b g).library]
  rfl

theorem playCounted_of_check {id n : Nat} (h : g.source = .check) (hslot : (s.bar b).checkSlot = some (.playing id n)) :
    s.playCounted b g = ((s.playFired b g).setLibrary { s.library with checks := s.lineRecords b id g.next }).modBar b
      fun x => { x with checkSlot := some (.playing id (if s.firesFull b (s.suppresses g) then n else n + 1)) } := by
  have hframe := playFired_frame s b g
  have hrecords : (s.playFired b g).lineRecords b id g.next = s.lineRecords b id g.next := by
    rw [State.lineRecords, State.lineRecords, hframe.library, hframe.line]
  refine (countRow_of_check h ((playFired_bar s b b g).symm ▸ hslot)).trans ?_
  rw [hrecords, hframe.library]

/-- What a row of a play leaves of the state, whoever began the play. -/
structure PlayedRow (s fired t : State) (b : BarId) (g : GapPlay) (e : Pattern) : Prop where
  lanes : t.lanes = fired.lanes
  position : t.position = fired.position
  lists : t.lists = s.lists
  bars : ∀ c, c ≠ b → t.bar c = s.bar c
  motion : t.links.motion = fired.links.motion
  image : t.links.image = s.links.image
  traffic : g.source = .page ∨ g.next + 1 < e.rows → t.sent = fired.sent ∧ t.links.service = s.links.service
  next : (t.bar b).next = .idle
  queue : t.queue = s.queue
  ring : t.ring = s.ring
  advances : g.next + 1 < e.rows → (t.bar b).gapPlay = some { g with next := g.next + 1 }
  ends : e.rows ≤ g.next + 1 → (t.bar b).gapPlay = none
  page : g.source = .page → (t.bar b).checkSlot = (s.bar b).checkSlot ∧ t.library = s.library

theorem gapAction_playedRow {e : Pattern} (hnext : (s.bar b).next = .pattern) (hg : (s.bar b).gapPlay = some g)
    (he : s.pattern g.name = some e) : PlayedRow s (s.playFired b g) (s.gapAction b) b g e := by
  have hfired := playFired_frame s b g
  have hrows := playCounted_patternRows (b := b) he
  have hplay : PlayFrame b (s.playFired b g) ((s.playCounted b g).advancePlay b g) :=
    (playCounted_frame s b g).trans (.advancePlay _ b g)
  obtain ⟨hsent, hlinks, _⟩ := countRow_traffic (s.playFired b g) b g (s.firesFull b (s.suppresses g))
  have hgap := advancePlay_gapPlay (s.playCounted b g) b g
  rw [hrows] at hgap
  have ht := gapAction_of_play hnext hg
  have hbar : (s.gapAction b).bar b = { ((s.playCounted b g).advancePlay b g).bar b with next := .idle } := by
    rw [ht, barIdle_bar]
  exact {
    lanes := ht ▸ hplay.lanes
    position := ht ▸ hplay.position
    lists := ht ▸ hplay.lists.trans hfired.lists
    bars := fun c hc => by
      rw [ht]
      exact (modBar_bar_ne _ _ hc).trans ((hplay.bars c hc).trans (playFired_bar s b c g))
    motion := ht ▸ hplay.motion
    image := ht ▸ Eq.trans hplay.image hfired.image
    traffic := fun h => by
      obtain ⟨hs, hl, _⟩ := advancePlay_traffic (s := s.playCounted b g) (b := b) (g := g) (hrows.symm ▸ h)
      rw [ht]
      exact ⟨hs.trans hsent, (congrArg PerLink.service (hl.trans hlinks)).trans hfired.service⟩
    next := congrArg Bar.next hbar
    queue := ht ▸ hplay.queue.trans (playFired_queue s b g)
    ring := ht ▸ hplay.ring.trans hfired.ring
    advances := fun h => (congrArg Bar.gapPlay hbar).trans (hgap.trans (if_pos h))
    ends := fun h => (congrArg Bar.gapPlay hbar).trans (hgap.trans (if_neg (Nat.not_lt.2 h)))
    page := fun h => by
      have hcounted : s.playCounted b g = s.playFired b g := countRow_of_page h
      obtain ⟨_, _, hlib, hslot⟩ := advancePlay_traffic (s := s.playCounted b g) (b := b) (Or.inl h)
      rw [hcounted] at hlib hslot
      refine ⟨(congrArg Bar.checkSlot hbar).trans ?_, ?_⟩
      · rw [hcounted]
        exact hslot.trans (congrArg Bar.checkSlot (playFired_bar s b b g))
      · rw [ht, hcounted]
        exact hlib.trans hfired.library }

end Gap

/-- The row of a check's play: the check is counted, and ends with its last row. -/
theorem gapAction_check {s : State} {b : BarId} {g : GapPlay} {e : Pattern} {id n : Nat}
    (hnext : (s.bar b).next = .pattern) (hg : (s.bar b).gapPlay = some g) (he : s.pattern g.name = some e)
    (hsource : g.source = .check) (hslot : (s.bar b).checkSlot = some (.playing id n)) :
    let t := s.gapAction b
    let n' := if s.firesFull b (s.suppresses g) then n else n + 1
    let checks := s.lineRecords b id g.next
    (g.next + 1 < e.rows → (t.bar b).checkSlot = some (.playing id n') ∧ t.library = { s.library with checks := checks }) ∧
    (e.rows ≤ g.next + 1 → ∃ u : State, (u.bar b).checkSlot = some (.playing id n') ∧
      u.library = { s.library with checks := checks } ∧ u.links.service = s.links.service ∧
      u.sent = (s.playFired b g).sent ∧ u.fresh = s.fresh ∧ t = (u.endCheck b .whole).barIdle b) := by
  have hcounted := playCounted_of_check hsource hslot
  have hrows := playCounted_patternRows (b := b) he
  have hfired := playFired_frame s b g
  have ht := gapAction_of_play hnext hg
  have hcountedSlot : ((s.playCounted b g).bar b).checkSlot =
      some (.playing id (if s.firesFull b (s.suppresses g) then n else n + 1)) := by
    rw [hcounted, modBar_bar_same]
  have hcountedLib : (s.playCounted b g).library = { s.library with checks := s.lineRecords b id g.next } :=
    (congrArg State.library hcounted).trans rfl
  dsimp only
  rw [ht]
  refine ⟨fun h => ?_, fun h => ⟨(s.playCounted b g).playEnded b, ?_, hcountedLib, ?_, ?_, ?_, ?_⟩⟩
  · rw [advancePlay_of_lt (hrows.symm ▸ h), barIdle_bar, modBar_bar_same]
    exact ⟨hcountedSlot, hcountedLib⟩
  · rw [State.playEnded, modBar_bar_same]
    exact hcountedSlot
  · exact (congrArg (fun u : State => u.links.service) hcounted).trans hfired.service
  · exact (congrArg State.sent hcounted).trans rfl
  · exact (congrArg State.fresh hcounted).trans hfired.fresh
  · rw [advancePlay_of_check (hrows.symm ▸ Nat.not_lt.2 h) hsource]

/-- Settles O56: parks, the rows of a play, its truncation, and the end of a check. -/
theorem parksAndPatternRows : Obligations.ParksAndPatternRows := by
  refine ⟨fun s b passed h => ⟨takePark_of_due, takePark_of_not_due⟩,
    fun s b passed => ⟨s.lanesOf b, lanesOf_nodup s b, fun h => mem_lanesOf, rfl⟩,
    fun s b => ⟨fun h => ⟨_, tickHeads_acts .., gapAction_of_gap h⟩,
      fun h hp => ⟨_, tickHeads_acts .., gapAction_of_nothing h hp⟩⟩, fun s b g e hnext hg he => ?_,
    fun s b => ⟨truncatePlay_of_none, fun g e hg he => ⟨fun h => ?_, fun h => ?_⟩⟩, fun s b id n o r hslot hr => ?_⟩
  · have hrow := gapAction_playedRow hnext hg he
    have hacts := tickHeads_acts s b g.kind.rowKind none (s.suppresses g) false
    refine ⟨s.playFired b g, ?_, hrow.lanes, hrow.position, hrow.lists, hrow.bars, hrow.motion, hrow.image,
      hrow.traffic, hrow.next, hrow.queue, hrow.ring, hrow.advances, hrow.ends, hrow.page,
      fun id n hsource hslot => ?_⟩
    · obtain ⟨name, kind, next, source⟩ := g
      cases kind with
      | spit => exact hacts
      | check => exact hacts
    · obtain ⟨hmore, hlast⟩ := gapAction_check hnext hg he hsource hslot
      have hprinted : s.firesFull b (s.suppresses g) = true ↔ _ :=
        firesFull_iff.trans (and_congr_left' suppresses_eq_false_iff)
      exact ⟨_, _, fun h => if_pos (hprinted.2 h), fun h => if_neg (mt hprinted.1 h), rfl, hmore, hlast⟩
  · exact (truncatePlay_of_some hg he).trans (if_neg (by simp [h]))
  · exact (truncatePlay_of_some hg he).trans (if_pos h)
  · have hend := endCheck_of_playing o hslot hr
    have hset := endedAt_barSet r b o n
    refine ⟨r.endedAt b o n, endedAt_bars r b o n, endedAt_ended_iff, fun hopen => ?_, fun hended hidle => ?_,
      fun hended tag hwait => ?_⟩
    · exact hend.trans (if_neg (by simp [hopen]))
    · refine hend.trans ((if_pos hended).trans (checkDone_of_not_waiting fun tag hbusy => hidle tag ?_))
      rwa [hset] at hbusy
    · have hbusy : ((s.keepRecord b id (r.endedAt b o n)).link .service).busy =
          some (.waiting tag (.chkprint (r.endedAt b o n).id (r.endedAt b o n).barSet)) := by
        rw [hset]
        exact hwait
      have hdone := hend.trans ((if_pos hended).trans (checkDone_of_waiting hbusy))
      refine ⟨fun hwhole => ?_, fun hnot => ?_⟩
      · rw [status_of_whole hwhole] at hdone
        exact hdone
      · rw [status_of_not_whole hnot] at hdone
        exact hdone

end Sys2Proof.Machine
end

section
/-! SUPPORT. The heads' part in the pass of a page row, and what comes before the pass itself (R33, R38, R42, R88, R89,
R134). -/

namespace Sys2Proof.Machine

/-! ### Flags and pages -/

/-- A flag that is raised leaves the others. -/
theorem raised_and_of_disjoint (x : FlagWord) {bit mask : FlagWord} (h : bit &&& mask = 0) :
    (x ||| bit) &&& mask = x &&& mask := by
  ext i hi
  have hbit : (bit[i] && mask[i]) = false := by
    rw [← BitVec.getElem_and, h]
    exact BitVec.getElem_zero hi
  rw [BitVec.getElem_and, BitVec.getElem_or, Bool.and_or_distrib_right, hbit, Bool.or_false, BitVec.getElem_and]

theorem raised_and_self (x bit : FlagWord) : (x ||| bit) &&& bit = bit := by
  ext i hi
  rw [BitVec.getElem_and, BitVec.getElem_or]
  cases bit[i] <;> simp

theorem modPage_page_ne (s : State) {id j : Nat} {f : Page → Page} (hf : ∀ p, (f p).id = p.id) (h : j ≠ id) :
    (s.modPage id f).page j = s.page j := by
  rw [modPage_page s id f hf]
  cases hp : s.page j with
  | none => rfl
  | some p =>
    rw [Option.map_some, if_neg (by rw [page_id hp, beq_iff_eq]; exact h)]

theorem modPage_page_same {s : State} {id : Nat} {f : Page → Page} {q : Page} (hf : ∀ p, (f p).id = p.id)
    (h : s.page id = some q) : (s.modPage id f).page id = some (f q) := by
  rw [modPage_page s id f hf, h, Option.map_some, page_id h, beq_self_eq_true, if_pos rfl]

/-! ### The heads' part (R85 to R87) -/

/-- A page record after misses at heads were counted in it. -/
def Page.Missed (q q' : Page) : Prop :=
  q' = { q with missedLate := q'.missedLate, missedOverspeed := q'.missedOverspeed, degraded := q'.degraded }

theorem Page.Missed.trans {q q' q'' : Page} (h : q.Missed q') (k : q'.Missed q'') : q.Missed q'' := by
  rw [Page.Missed] at h k
  rw [h] at k
  exact k

/-- What the heads of a bar leave at the row of a page. -/
structure HeadsMiss (s u : State) (id : Nat) : Prop where
  frame : TickFrame s u
  pages : ∀ j, j ≠ id → u.page j = s.page j
  page : ∀ q, s.page id = some q → ∃ q', u.page id = some q' ∧ q.Missed q'
  done : (u.link .motion).flags &&& 0x0008 = (s.link .motion).flags &&& 0x0008

namespace HeadsMiss

variable {s t u : State} {id : Nat}

theorem refl (s : State) (id : Nat) : HeadsMiss s s id := ⟨.refl s, fun _ _ => rfl, fun q hq => ⟨q, hq, rfl⟩, rfl⟩

theorem trans (h : HeadsMiss s t id) (k : HeadsMiss t u id) : HeadsMiss s u id where
  frame := h.frame.trans k.frame
  pages j hj := (k.pages j hj).trans (h.pages j hj)
  page q hq := by
    obtain ⟨q', hq', hmissed⟩ := h.page q hq
    obtain ⟨q'', hq'', hmissed'⟩ := k.page q' hq'
    exact ⟨q'', hq'', hmissed.trans hmissed'⟩
  done := k.done.trans h.done

theorem headMisses (s : State) (kind : RowKind) (limit : Nat) (h : LaneId) : HeadsMiss s (s.headMisses kind limit h) id :=
  ⟨⟨rfl, rfl, rfl, rfl, rfl, rfl, rfl, rfl, rfl⟩, fun _ _ => rfl, fun q hq => ⟨q, hq, rfl⟩, rfl⟩

theorem modPage (s : State) {f : Page → Page} (hf : ∀ p : Page, p.Missed (f p)) : HeadsMiss s (s.modPage id f) id := by
  have hid (p : Page) : (f p).id = p.id := by rw [hf p]
  exact ⟨⟨rfl, rfl, rfl, rfl, rfl, rfl, rfl, rfl, rfl⟩, fun j hj => modPage_page_ne s hid hj,
    fun q hq => ⟨f q, modPage_page_same hid hq, hf q⟩, rfl⟩

theorem overspeed (s : State) (n : Nat) :
    HeadsMiss s ((s.setPosition { s.position with overspeed := n }).raise .motion .overspeed) id := by
  refine ⟨⟨rfl, rfl, rfl, rfl, rfl, rfl, rfl, rfl, rfl⟩, fun _ _ => rfl, fun q hq => ⟨q, hq, rfl⟩, ?_⟩
  rw [raise_link, if_pos rfl]
  exact raised_and_of_disjoint _ (by decide)

theorem tickHead (s : State) (kind : RowKind) (limit : Nat) (suppressed waiting : Bool) (h : LaneId) :
    HeadsMiss s (s.tickHead kind limit (some id) suppressed waiting h) id := by
  cases ho : headOutcome suppressed waiting (s.lane h) with
  | nothing => exact tickHead_of_nothing ho ▸ headMisses s kind limit h
  | late => exact tickHead_of_late ho ▸ (headMisses s kind limit h).trans (modPage (f := Page.countLate) _ fun _ => rfl)
  | overspeed =>
    exact tickHead_of_overspeed ho ▸
      ((headMisses s kind limit h).trans (overspeed _ _)).trans (modPage (f := Page.countOverspeed) _ fun _ => rfl)
  | keepWet =>
    simp only [State.tickHead, ho]
    exact ⟨⟨rfl, rfl, rfl, rfl, rfl, rfl, rfl, rfl, rfl⟩, fun _ _ => rfl, fun q hq => ⟨q, hq, rfl⟩, rfl⟩
  | fired =>
    simp only [State.tickHead, ho]
    exact ⟨⟨rfl, rfl, rfl, rfl, rfl, rfl, rfl, rfl, rfl⟩, fun _ _ => rfl, fun q hq => ⟨q, hq, rfl⟩, rfl⟩

theorem of_act {b : BarId} {kind : RowKind} {suppressed waiting : Bool}
    (h : s.HeadsAct t b kind (some id) suppressed waiting) : HeadsMiss s t id := by
  obtain ⟨heads, _, _, rfl⟩ := h
  exact foldl_tickHead_keeps (HeadsMiss s · id) _ _ _ _ _ (fun u g hu => hu.trans (tickHead u _ _ _ _ g)) heads s
    (refl s id)

end HeadsMiss

/-- A head counts no miss at a row that is suppressed or an underrun. -/
theorem headOutcome_of_quiet {suppressed waiting : Bool} (h : suppressed = true ∨ waiting = true) (ln : Lane) :
    headOutcome suppressed waiting ln = .nothing ∨ headOutcome suppressed waiting ln = .keepWet := by
  unfold headOutcome
  cases ln.load with
  | none => exact Or.inl rfl
  | some ld =>
    cases suppressed with
    | true =>
      dsimp only
      rw [if_pos rfl]
      split
      · exact Or.inr rfl
      · exact Or.inl rfl
    | false =>
      obtain rfl : waiting = true := by simpa using h
      exact Or.inl rfl

theorem headsAct_queue_of_quiet {s t : State} {b : BarId} {kind : RowKind} {page : Option Nat} {suppressed waiting : Bool}
    (hq : suppressed = true ∨ waiting = true) (h : s.HeadsAct t b kind page suppressed waiting) : t.queue = s.queue := by
  obtain ⟨heads, _, _, rfl⟩ := h
  refine foldl_tickHead_keeps (fun u => u.queue = s.queue) _ _ _ _ _ (fun u g hu => Eq.trans ?_ hu) heads s rfl
  simp only [State.tickHead]
  rcases headOutcome_of_quiet hq (u.lane g) with ho | ho <;> rw [ho] <;> rfl

/-! ### The record of a load (R81) -/

theorem loadOf_of_held {s : State} {b : BarId} {pl : PageLoad} (h : (s.bar b).next = .page pl) :
    s.loadOf b pl.page pl.row = pl := by
  simp only [State.loadOf, h, and_self, if_true]

/-- The record of a load that a bar does not hold. -/
def State.freshLoad (s : State) (b : BarId) (id row : Nat) : PageLoad :=
  { page := id, row := row, view := .table, fields := (s.bar b).inEffect, waiting := !s.rowComplete id row
    lost := 0, substituted := 0, added := false }

theorem loadOf_of_not_held {s : State} {b : BarId} {id row : Nat}
    (h : ∀ pl, (s.bar b).next = .page pl → pl.page ≠ id ∨ pl.row ≠ row) : s.loadOf b id row = s.freshLoad b id row := by
  simp only [State.loadOf]
  split
  next pl hpl => exact if_neg fun hc => (h pl hpl).elim (absurd hc.1) (absurd hc.2)
  next => rfl

theorem loadOf_page (s : State) (b : BarId) (id row : Nat) : (s.loadOf b id row).page = id := by
  simp only [State.loadOf]
  split
  · split
    next hc => exact hc.1
    next => rfl
  · rfl

/-! ### Before the pass: dark reports, tallies, underruns -/

/-- The degraded flag set (R89). -/
def Page.degrade (p : Page) : Page := { p with degraded := true }

theorem darkPass_of_reported {w : State} {b : BarId} {id : Nat} (h : (w.bar b).darkReported = true) :
    w.darkPass b id = w.modPage id Page.degrade := if_pos h

theorem darkPass_of_unreported {w : State} {b : BarId} {id : Nat} (h : (w.bar b).darkReported = false) :
    w.darkPass b id = ((w.modPage id Page.degrade).modBar b fun x => { x with darkReported := true }).raise .service
      .bardark := by
  have hno : ¬(w.bar b).darkReported = true := by simp [h]
  exact if_neg hno

/-- What precedes the pass of a row at a bar, after the heads' part `u`: `dark` says whether the pass is dark and
`under` whether it is an underrun. -/
structure PassPrepared (s u w : State) (b : BarId) (id : Nat) (dark under : Bool) : Prop where
  lanes : w.lanes = u.lanes
  sent : w.sent = u.sent
  position : w.position = u.position
  lists : w.lists = s.lists
  library : w.library = s.library
  ring : w.ring = s.ring
  pages : ∀ j, j ≠ id → w.page j = s.page j
  bars : ∀ c, c ≠ b → w.bar c = s.bar c
  bar : w.bar b = { s.bar b with next := .idle, darkReported := dark || (s.bar b).darkReported }
  service : w.link .service = if dark && !(s.bar b).darkReported
    then { s.link .service with flags := (s.link .service).flags ||| 0x0040 } else s.link .service
  image : w.link .image = if under
    then { s.link .image with flags := (s.link .image).flags ||| 0x0004 } else s.link .image
  motion : w.link .motion = u.link .motion

namespace PassPrepared

variable {s u w : State} {b : BarId} {id : Nat} {dark under : Bool}

theorem idle (h : HeadsMiss s u id) : PassPrepared s u (u.barIdle b) b id false false where
  lanes := rfl
  sent := rfl
  position := rfl
  lists := h.frame.lists
  library := h.frame.library
  ring := h.frame.ring
  pages := h.pages
  bars c hc := (modBar_bar_ne u _ hc).trans (congrArg (PerBar.get · c) h.frame.bars)
  bar := by
    have hbar : u.bar b = s.bar b := congrArg (PerBar.get · b) h.frame.bars
    rw [barIdle_bar, hbar]
    rfl
  service := h.frame.service
  image := h.frame.image
  motion := rfl

theorem modPage {f : Page → Page} (hf : ∀ p, (f p).id = p.id) (h : PassPrepared s u w b id dark under) :
    PassPrepared s u (w.modPage id f) b id dark under :=
  { h with pages := fun j hj => (modPage_page_ne w hf hj).trans (h.pages j hj) }

theorem darkPass (h : PassPrepared s u w b id false under) : PassPrepared s u (w.darkPass b id) b id true under := by
  have hreported : (w.bar b).darkReported = (s.bar b).darkReported := by
    rw [h.bar]
    rfl
  have hmod := h.modPage (f := Page.degrade) fun _ => rfl
  cases hr : (s.bar b).darkReported with
  | true =>
    rw [darkPass_of_reported (hreported.trans hr)]
    exact { hmod with
      bar := hmod.bar.trans (by simp [hr])
      service := hmod.service.trans (by simp [hr]) }
  | false =>
    rw [darkPass_of_unreported (hreported.trans hr)]
    refine { hmod with bars := fun c hc => ?_, bar := ?_, service := ?_ }
    · exact (modBar_bar_ne (w.modPage id Page.degrade) (fun x => { x with darkReported := true }) hc).trans
        (hmod.bars c hc)
    · refine (modBar_bar_same (w.modPage id Page.degrade) b fun x => { x with darkReported := true }).trans ?_
      rw [hmod.bar]
      rfl
    · have hservice : w.link .service = s.link .service := h.service
      rw [raise_link, if_pos rfl, hr]
      exact congrArg (fun x : Link => { x with flags := x.flags ||| flagBit .service .bardark }) hservice

theorem underrun (h : PassPrepared s u w b id dark false) :
    PassPrepared s u (w.raise .image .underrun) b id dark true :=
  { h with
    image := by
      rw [raise_link, if_pos rfl, h.image]
      rfl }

end PassPrepared

end Sys2Proof.Machine
end

section
/-! SUPPORT. The pass of a row at a bar (R15, R33, R34, R162), and the ways it is reached. -/

namespace Sys2Proof.Machine

/-! ### The pass (R15, R34, R162) -/

/-- A page whose row a bar has passed. -/
def Page.passedBy (p : Page) (b : BarId) (row : Nat) : Page := { p with progress := p.progress.set b (some (row + 1)) }

/-- Whether a bar's progress in a page is whole, where the page is for it. -/
def progressWhole (rowCount : Nat) : Option Nat → Bool
  | some n => n == rowCount
  | none => true

theorem whole_iff {p : Page} : p.whole = true ↔ ∀ g n, p.progress.get g = some n → n = p.rowCount := by
  have hall : p.whole = p.progress.toList.all (progressWhole p.rowCount) := rfl
  rw [hall, all_toList_iff]
  refine forall_congr' fun g => ?_
  cases p.progress.get g <;> simp [progressWhole]

/-- The play a bar has after its last row of a page (R162). -/
def State.gapAfter (s : State) (b : BarId) : Option Name → Option GapPlay
  | some n => some ⟨n, s.patternKind n, 0, .page⟩
  | none => (s.bar b).gapPlay

theorem gapAfter_of_some {s : State} {b : BarId} {n : Name} {e : Pattern} (h : s.pattern n = some e) :
    s.gapAfter b (some n) = some { name := n, kind := e.kind, next := 0, source := .page } := by
  simp only [State.gapAfter, State.patternKind, h]

/-- What the pass of a row at a bar moves: `last` says whether the row is the page's last, and `ends` whether the page
is done with it. -/
structure RowPassed (w x : State) (b : BarId) (id row : Nat) (p : Page) (last ends : Bool) : Prop where
  lanes : x.lanes = w.lanes
  sent : x.sent = w.sent
  position : x.position = w.position
  lists : x.lists = w.lists
  library : x.library = w.library
  service : x.link .service = w.link .service
  pages : ∀ j, j ≠ id → x.page j = w.page j
  page : x.page id = some { p.passedBy b row with state := if ends then .done else p.state }
  bars : ∀ c, c ≠ b → x.bar c = w.bar c
  bar : x.bar b = if last then { w.bar b with darkReported := false, gapPlay := w.gapAfter b p.gap } else w.bar b
  ring : x.ring = { w.ring with
    rows := released (w.ring.rows.map fun r => if r.page = id ∧ r.row = row then r.passedAt b else r) }
  image : x.link .image = if ends
    then { w.link .image with flags := (w.link .image).flags ||| 0x0001 } else w.link .image
  motion : x.link .motion = if ends
    then { w.link .motion with flags := (w.link .motion).flags ||| 0x0008 } else w.link .motion

/-- The page's progress and the row's flag (R15, R33). -/
def State.rowPassed (w : State) (b : BarId) (id row : Nat) : State :=
  (w.modPage id (·.passedBy b row)).passRow id row b

theorem passRow_rows (w : State) (b : BarId) (id row : Nat) : (w.passRow id row b).ring.rows =
    released (w.ring.rows.map fun r => if r.page = id ∧ r.row = row then r.passedAt b else r) := by
  refine congrArg released ((modRow_rows w id row (·.passAt b)).trans (List.map_congr_left fun r _ => ?_))
  rw [passAt_eq]

theorem rowPassed_passed {w : State} {b : BarId} {id row : Nat} {p : Page} (h : w.page id = some p) :
    RowPassed w (w.rowPassed b id row) b id row p false false where
  lanes := rfl
  sent := rfl
  position := rfl
  lists := rfl
  library := rfl
  service := rfl
  pages _ hj := modPage_page_ne w (f := (·.passedBy b row)) (fun _ => rfl) hj
  page := modPage_page_same (f := (·.passedBy b row)) (fun _ => rfl) h
  bars _ _ := rfl
  bar := rfl
  ring := congrArg (fun rows => { w.ring with rows := rows }) (passRow_rows (w.modPage id (·.passedBy b row)) b id row)
  image := rfl
  motion := rfl

namespace RowPassed

variable {w x : State} {b : BarId} {id row : Nat} {p : Page}

theorem lastPass (h : RowPassed w x b id row p false false) :
    RowPassed w (x.lastPass b p.gap) b id row p true false := by
  have hkind (n : Name) : x.patternKind n = w.patternKind n :=
    (congrArg (fun y => (w.setLibrary y).patternKind n) h.library).trans rfl
  have hbar : x.bar b = w.bar b := h.bar
  cases hgap : p.gap with
  | none =>
    refine { h with bars := fun c hc => (modBar_bar_ne _ _ hc).trans (h.bars c hc), bar := ?_ }
    rw [if_pos rfl, hgap, State.gapAfter, ← hbar]
    exact modBar_bar_same x b fun y => { y with darkReported := false }
  | some n =>
    refine { h with
      bars := fun c hc => (modBar_bar_ne _ _ hc).trans ((modBar_bar_ne _ _ hc).trans (h.bars c hc)), bar := ?_ }
    rw [if_pos rfl, hgap, State.gapAfter, ← hbar, ← hkind]
    refine (modBar_bar_same (x.modBar b fun y => { y with darkReported := false }) b _).trans ?_
    rw [modBar_bar_same]
    rfl

/-- A page becomes DONE, and PGDONE is raised on both links. -/
theorem done {last : Bool} (h : RowPassed w x b id row p last false) :
    RowPassed w (((x.modPage id fun p => { p with state := .done }).raise .image .pgdone).raise .motion .pgdone)
      b id row p last true := by
  have himage : x.link .image = w.link .image := h.image
  have hmotion : x.link .motion = w.link .motion := h.motion
  exact { h with
    pages := fun j hj => (modPage_page_ne x (f := fun p => { p with state := .done }) (fun _ => rfl) hj).trans (h.pages j hj)
    page := modPage_page_same (f := fun p => { p with state := .done }) (fun _ => rfl) h.page
    image := by
      rw [if_pos rfl, ← himage]
      rfl
    motion := by
      rw [if_pos rfl, ← hmotion]
      rfl }

end RowPassed

theorem checkDonePage_of_some {x : State} {id : Nat} {p : Page} (h : x.page id = some p) : x.checkDonePage id =
    if p.state = .printing ∧ p.whole = true then
      ((x.modPage id fun p => { p with state := .done }).raise .image .pgdone).raise .motion .pgdone
    else x := by
  simp only [State.checkDonePage, h]

theorem completePass_of_some {w : State} {b : BarId} {id row : Nat} {p : Page} (h : w.page id = some p) :
    w.completePass b id row = if row + 1 = p.rowCount
      then ((w.rowPassed b id row).lastPass b p.gap).checkDonePage id else w.rowPassed b id row := by
  have hpage : (w.rowPassed b id row).page id = some (p.passedBy b row) := (rowPassed_passed h).page
  rw [State.rowPassed] at hpage
  simp only [State.completePass]
  exact (congrArg (fun y : Option Page => match y with
    | some q => if row + 1 = q.rowCount then ((w.rowPassed b id row).lastPass b q.gap).checkDonePage id
      else w.rowPassed b id row
    | none => w.rowPassed b id row) hpage).trans rfl

/-- Whether a row is a page's last, and whether the page is whole with a bar's pass of it (R34). -/
def Page.isLast (p : Page) (row : Nat) : Bool := decide (row + 1 = p.rowCount)

def Page.endsWith (p : Page) (b : BarId) (row : Nat) : Bool := p.isLast row && (p.passedBy b row).whole

theorem completePass_passed {w : State} {b : BarId} {id row : Nat} {p : Page} (h : w.page id = some p)
    (hprinting : p.state = .printing) :
    RowPassed w (w.completePass b id row) b id row p (p.isLast row) (p.endsWith b row) := by
  have hpassed := rowPassed_passed (b := b) (row := row) h
  rw [completePass_of_some h, Page.endsWith]
  by_cases hlast : row + 1 = p.rowCount
  · have hl : p.isLast row = true := decide_eq_true hlast
    have hlastPass := hpassed.lastPass
    have hpage : ((w.rowPassed b id row).lastPass b p.gap).page id = some (p.passedBy b row) := hlastPass.page
    rw [if_pos hlast, checkDonePage_of_some hpage, hl, Bool.true_and]
    cases hwhole : (p.passedBy b row).whole with
    | true =>
      rw [if_pos ⟨hprinting, rfl⟩]
      exact hlastPass.done
    | false =>
      have hno : ¬((p.passedBy b row).state = .printing ∧ false = true) := by simp
      rw [if_neg hno]
      exact hlastPass
  · have hl : p.isLast row = false := decide_eq_false hlast
    rw [if_neg hlast, hl]
    exact hpassed

/-! ### How the pass is reached (R33, R38, R42, R88, R89, R134) -/

/-- A page record whose tallies the pass settles against the Suppress flag (R134). -/
def Page.settle (pl : PageLoad) (suppressed : Bool) (p : Page) : Page :=
  if suppressed then (if pl.added then p.takeTallies pl.lost pl.substituted else p)
  else if pl.added || pl.waiting then p else p.addTallies pl.lost pl.substituted

theorem settle_id (pl : PageLoad) (suppressed : Bool) (p : Page) : (p.settle pl suppressed).id = p.id := by
  unfold Page.settle
  split
  · split <;> rfl
  · split <;> rfl

theorem modPage_self (s : State) (id : Nat) : s.modPage id (fun p => p) = s := by
  have hmap : s.queue.pages.map (fun p => if p.id == id then p else p) = s.queue.pages := by simp
  rw [State.modPage, hmap]
  rfl

theorem settleTallies_eq (s : State) (pl : PageLoad) (suppressed : Bool) :
    s.settleTallies pl suppressed = s.modPage pl.page (·.settle pl suppressed) := by
  unfold State.settleTallies Page.settle
  cases suppressed with
  | true => cases pl.added <;> simp [modPage_self]
  | false => cases pl.added <;> cases pl.waiting <;> simp [modPage_self]

section Reach

variable (s : State) (b : BarId) (id row : Nat)

/-- The heads' part in the pass of a row of a page. -/
def State.pageHeads : State := s.tickHeads b .page (some id) s.queue.suppress (s.loadOf b id row).waiting

/-- The bar after the heads' part, and after the report of a dark pass. -/
def State.passStarted : State :=
  if (s.activeLanes b).isEmpty then ((s.pageHeads b id row).barIdle b).darkPass b id
  else (s.pageHeads b id row).barIdle b

/-- A suppressed pass, up to the pass itself. -/
def State.beforeSuppressed : State :=
  (((s.pageHeads b id row).barIdle b).modPage id (·.settle (s.loadOf b id row) true)).modPage id Page.countSuppressed

/-- A pass of a row that was assigned, up to the pass itself. -/
def State.beforeSettled : State := (s.passStarted b id row).modPage id (·.settle (s.loadOf b id row) false)

/-- An underrun, up to what its policy does. -/
def State.underrunAt : State := (s.passStarted b id row).raise .image .underrun

variable {s b id row}

theorem passPage_of_suppressed (h : s.queue.suppress = true) :
    s.passPage b id row = (s.beforeSuppressed b id row).completePass b id row := by
  have hsettle := settleTallies_eq ((s.pageHeads b id row).barIdle b) (s.loadOf b id row) true
  rw [loadOf_page] at hsettle
  rw [State.beforeSuppressed, ← hsettle]
  exact if_pos h

theorem passPage_of_settled (h : s.queue.suppress = false) (hwait : (s.loadOf b id row).waiting = false) :
    s.passPage b id row = (s.beforeSettled b id row).completePass b id row := by
  have hsettle := settleTallies_eq (s.passStarted b id row) (s.loadOf b id row) false
  rw [loadOf_page] at hsettle
  rw [State.beforeSettled, ← hsettle]
  exact (if_neg (by simp [h])).trans (if_neg (by simp [hwait]))

theorem passPage_of_underrun (h : s.queue.suppress = false) (hwait : (s.loadOf b id row).waiting = true) :
    s.passPage b id row = (s.passStarted b id row).underrun b id row :=
  (if_neg (by simp [h])).trans (if_pos hwait)

end Reach

end Sys2Proof.Machine
end

section
/-! The pass of a page row at a bar. -/

namespace Sys2Proof.Machine

/-! ### The page's record through a pass -/

/-- A page record after a pass counted in it what it settles: tallies, an underrun, a suppressed row, its degraded
flag. -/
def Page.Counted (p p' : Page) : Prop :=
  p' = { p with
    missedUnderrun := p'.missedUnderrun, suppressed := p'.suppressed, lost := p'.lost, substituted := p'.substituted
    degraded := p'.degraded }

/-- A page record after a pass: what a pass moves beside the page's intake. -/
def Page.Moved (q q' : Page) : Prop :=
  q' = { q with
    state := q'.state, cause := q'.cause, progress := q'.progress, missedUnderrun := q'.missedUnderrun
    missedLate := q'.missedLate, missedOverspeed := q'.missedOverspeed, suppressed := q'.suppressed
    lost := q'.lost, substituted := q'.substituted, degraded := q'.degraded }

namespace Page

variable {p p' p'' : Page}

theorem Counted.trans (h : p.Counted p') (k : p'.Counted p'') : p.Counted p'' := by
  rw [Counted] at h k
  rw [h] at k
  exact k

theorem Moved.trans (h : p.Moved p') (k : p'.Moved p'') : p.Moved p'' := by
  rw [Moved] at h k
  rw [h] at k
  exact k

theorem Counted.moved (h : p.Counted p') : p.Moved p' := by
  rw [Moved, h]

theorem Missed.moved (h : p.Missed p') : p.Moved p' := by
  rw [Moved, h]

theorem counted_settle (p : Page) (pl : PageLoad) (suppressed : Bool) : p.Counted (p.settle pl suppressed) := by
  unfold settle
  split
  · split <;> rfl
  · split <;> rfl

/-- A page record at a pass that has started: degraded where the pass is dark. -/
def started (p : Page) (dark : Bool) : Page := if dark then p.degrade else p

theorem counted_started (p : Page) (dark : Bool) : p.Counted (p.started dark) := by
  cases dark <;> rfl

theorem settle_true_tallies (p : Page) (pl : PageLoad) :
    (p.settle pl true).lost = (if pl.added = true ∧ p.lost ≠ 4294967295 then p.lost - pl.lost else p.lost) ∧
      (p.settle pl true).substituted =
        if pl.added = true ∧ p.substituted ≠ 4294967295 then p.substituted - pl.substituted else p.substituted := by
  have hback (n k : Nat) : takeBack n k = if n ≠ 4294967295 then n - k else n := by
    rw [takeBack, ite_not]
  unfold settle
  cases pl.added with
  | true => simp [takeTallies, hback]
  | false => simp

theorem settle_false_tallies (p : Page) {pl : PageLoad} (hwait : pl.waiting = false) :
    (p.settle pl false).lost = (if pl.added = true then p.lost else min 4294967295 (p.lost + pl.lost)) ∧
      (p.settle pl false).substituted =
        if pl.added = true then p.substituted else min 4294967295 (p.substituted + pl.substituted) := by
  unfold settle
  cases pl.added with
  | true => simp
  | false =>
    rw [hwait]
    exact ⟨rfl, rfl⟩

/-- The degraded flag, once set, stays; tallies of lost pixels that are added set it (R133). -/
theorem settle_false_degraded (p : Page) {pl : PageLoad} (hwait : pl.waiting = false) :
    (p.settle pl false).degraded = true ↔ p.degraded = true ∨ (pl.added = false ∧ 1 ≤ pl.lost) := by
  unfold settle
  cases pl.added with
  | true => simp
  | false => simp [hwait, addTallies]

end Page

/-! ### Flags -/

theorem PassPrepared.image_flags {s u w : State} {b : BarId} {id : Nat} {dark under : Bool}
    (h : PassPrepared s u w b id dark under) :
    (w.link .image).flags &&& 0x0001 = (s.link .image).flags &&& 0x0001 ∧
      (w.link .image).flags &&& 0x0004 = if under then 0x0004 else (s.link .image).flags &&& 0x0004 := by
  rw [h.image]
  cases under with
  | true => exact ⟨raised_and_of_disjoint _ (by decide), raised_and_self ..⟩
  | false => exact ⟨rfl, rfl⟩

theorem RowPassed.flags {w x : State} {b : BarId} {id row : Nat} {p : Page} {last ends : Bool}
    (h : RowPassed w x b id row p last ends) :
    (x.link .image).flags &&& 0x0001 = (if ends then 0x0001 else (w.link .image).flags &&& 0x0001) ∧
      (x.link .image).flags &&& 0x0004 = (w.link .image).flags &&& 0x0004 ∧
      (x.link .motion).flags &&& 0x0008 = (if ends then 0x0008 else (w.link .motion).flags &&& 0x0008) ∧
      (x.link .motion).flags &&& 0x0004 = (w.link .motion).flags &&& 0x0004 := by
  rw [h.image, h.motion]
  cases ends with
  | true =>
    exact ⟨raised_and_self .., raised_and_of_disjoint _ (by decide), raised_and_self ..,
      raised_and_of_disjoint _ (by decide)⟩
  | false => exact ⟨rfl, rfl, rfl, rfl⟩

/-! ### The states a pass goes through -/

theorem darkPass_page {w : State} {b : BarId} {id : Nat} {p : Page} (h : w.page id = some p) :
    (w.darkPass b id).page id = some p.degrade := by
  have hmod : (w.modPage id Page.degrade).page id = some p.degrade := modPage_page_same (fun _ => rfl) h
  cases hr : (w.bar b).darkReported with
  | true => rw [darkPass_of_reported hr, hmod]
  | false =>
    rw [darkPass_of_unreported hr]
    exact hmod

theorem abortPage_page {w : State} {id : Nat} {p : Page} (c : AbortCause) (h : w.page id = some p) :
    (w.abortPage id c).page id = some (p.abort c) := by
  have hpages : (w.abortPage id c).queue.pages = (w.modPage id (·.abort c)).queue.pages :=
    (abortPage_pages w id c).trans (List.map_congr_left fun q _ => by simp only [beq_iff_eq])
  have hpage := modPage_page_same (f := (·.abort c)) (fun _ => rfl) h
  rw [State.page] at hpage ⊢
  rw [hpages, hpage]

/-- Whether a pass at a bar is dark: not suppressed, and no head ACTIVE (R89). -/
def State.darkAt (s : State) (b : BarId) : Bool := !s.queue.suppress && (s.activeLanes b).isEmpty

theorem darkAt_iff {s : State} {b : BarId} :
    s.darkAt b = true ↔ s.queue.suppress = false ∧ ∀ h, ¬s.IsActiveAt b h := by
  simp only [State.darkAt, Bool.and_eq_true, Bool.not_eq_true', List.isEmpty_iff, List.eq_nil_iff_forall_not_mem,
    mem_activeLanes]

section Pass

variable {s : State} {b : BarId} {id row : Nat} {q : Page}

theorem pageHeads_act (s : State) (b : BarId) (id row : Nat) :
    s.HeadsAct (s.pageHeads b id row) b .page (some id) s.queue.suppress (s.loadOf b id row).waiting :=
  tickHeads_acts ..

theorem pageHeads_miss (s : State) (b : BarId) (id row : Nat) : HeadsMiss s (s.pageHeads b id row) id :=
  .of_act (pageHeads_act s b id row)

theorem pageHeads_page_of_quiet (h : s.queue.suppress = true ∨ (s.loadOf b id row).waiting = true) :
    (s.pageHeads b id row).page id = s.page id :=
  congrArg (fun x : Queue => x.pages.find? fun p : Page => p.id == id) (headsAct_queue_of_quiet h (pageHeads_act s b id row))

/-- A pass that has reached a state `w`, with the record `p` of its page there. -/
structure Reached (s : State) (b : BarId) (id row : Nat) (w : State) (p : Page) (under : Bool) : Prop where
  prepared : PassPrepared s (s.pageHeads b id row) w b id (s.darkAt b) under
  page : w.page id = some p

theorem passStarted_reached (hs : s.queue.suppress = false) {qu : Page} (hqu : (s.pageHeads b id row).page id = some qu) :
    Reached s b id row (s.passStarted b id row) (qu.started (s.darkAt b)) false := by
  have hidle : PassPrepared s (s.pageHeads b id row) ((s.pageHeads b id row).barIdle b) b id false false :=
    .idle (pageHeads_miss s b id row)
  have hdark : s.darkAt b = (s.activeLanes b).isEmpty := by
    rw [State.darkAt, hs]
    rfl
  unfold State.passStarted
  cases he : (s.activeLanes b).isEmpty with
  | true =>
    rw [if_pos rfl]
    exact ⟨hdark.trans he ▸ hidle.darkPass, hdark.trans he ▸ darkPass_page hqu⟩
  | false =>
    have hno : ¬(false = true) := by simp
    rw [if_neg hno]
    exact ⟨hdark.trans he ▸ hidle, hdark.trans he ▸ hqu⟩

theorem beforeSuppressed_reached (hs : s.queue.suppress = true) {qu : Page}
    (hqu : (s.pageHeads b id row).page id = some qu) :
    Reached s b id row (s.beforeSuppressed b id row) (qu.settle (s.loadOf b id row) true).countSuppressed false := by
  have hidle : PassPrepared s (s.pageHeads b id row) ((s.pageHeads b id row).barIdle b) b id false false :=
    .idle (pageHeads_miss s b id row)
  have hdark : s.darkAt b = false := by
    rw [State.darkAt, hs]
    rfl
  have hsettled := modPage_page_same (s := (s.pageHeads b id row).barIdle b)
    (f := (·.settle (s.loadOf b id row) true)) (fun p => settle_id _ _ p) hqu
  refine ⟨?_, modPage_page_same (fun _ => rfl) hsettled⟩
  rw [hdark]
  exact (hidle.modPage fun p => settle_id _ _ p).modPage (f := Page.countSuppressed) fun _ => rfl

theorem beforeSettled_reached (hs : s.queue.suppress = false) {qu : Page}
    (hqu : (s.pageHeads b id row).page id = some qu) :
    Reached s b id row (s.beforeSettled b id row) ((qu.started (s.darkAt b)).settle (s.loadOf b id row) false) false := by
  obtain ⟨hprep, hpage⟩ := passStarted_reached hs hqu
  exact ⟨hprep.modPage fun p => settle_id _ _ p, modPage_page_same (fun p => settle_id _ _ p) hpage⟩

theorem underrunAt_reached (hs : s.queue.suppress = false) {qu : Page}
    (hqu : (s.pageHeads b id row).page id = some qu) :
    Reached s b id row (s.underrunAt b id row) (qu.started (s.darkAt b)) true := by
  obtain ⟨hprep, hpage⟩ := passStarted_reached hs hqu
  exact ⟨hprep.underrun, hpage⟩

/-- An underrun under BLANK, up to the pass itself. -/
def State.beforeBlank (s : State) (b : BarId) (id row : Nat) : State :=
  (s.underrunAt b id row).modPage id Page.countUnderrun

theorem beforeBlank_reached (hs : s.queue.suppress = false) {qu : Page}
    (hqu : (s.pageHeads b id row).page id = some qu) :
    Reached s b id row (s.beforeBlank b id row) (qu.started (s.darkAt b)).countUnderrun true := by
  obtain ⟨hprep, hpage⟩ := underrunAt_reached hs hqu
  exact ⟨hprep.modPage fun _ => rfl, modPage_page_same (fun _ => rfl) hpage⟩

/-- The policy of a bar after its pass has started is the one before it. -/
theorem underrunAt_policy (hs : s.queue.suppress = false) (hq : s.page id = some q) :
    ((s.underrunAt b id row).bar b).inEffect = (s.bar b).inEffect := by
  obtain ⟨qu, hqu, _⟩ := (pageHeads_miss s b id row).page q hq
  rw [(underrunAt_reached hs hqu).prepared.bar]

theorem passPage_of_blank (hs : s.queue.suppress = false) (hwait : (s.loadOf b id row).waiting = true)
    (hq : s.page id = some q) (hpolicy : (s.bar b).inEffect.policy = .blank) :
    s.passPage b id row = (s.beforeBlank b id row).completePass b id row := by
  have hp : ((s.underrunAt b id row).bar b).inEffect.policy = .blank := by rw [underrunAt_policy hs hq, hpolicy]
  rw [State.underrunAt] at hp
  rw [passPage_of_underrun hs hwait]
  simp only [State.underrun, hp]
  rfl

theorem passPage_of_halt (hs : s.queue.suppress = false) (hwait : (s.loadOf b id row).waiting = true)
    (hq : s.page id = some q) (hpolicy : (s.bar b).inEffect.policy = .halt) :
    s.passPage b id row = (s.underrunAt b id row).abortPage id .underrunHalt := by
  have hp : ((s.underrunAt b id row).bar b).inEffect.policy = .halt := by rw [underrunAt_policy hs hq, hpolicy]
  rw [State.underrunAt] at hp
  rw [passPage_of_underrun hs hwait]
  simp only [State.underrun, hp]
  rfl

/-- A pass that does not halt its page takes place in a state that has its record counted. -/
theorem passPage_reached (hq : s.page id = some q) {qu : Page} (hqu : (s.pageHeads b id row).page id = some qu)
    (hgo : ¬(s.queue.suppress = false ∧ (s.loadOf b id row).waiting = true ∧ (s.bar b).inEffect.policy = .halt)) :
    ∃ w p under, Reached s b id row w p under ∧ qu.Counted p ∧ s.passPage b id row = w.completePass b id row := by
  cases hs : s.queue.suppress with
  | true =>
    exact ⟨_, _, _, beforeSuppressed_reached hs hqu, (qu.counted_settle _ true).trans rfl, passPage_of_suppressed hs⟩
  | false =>
    cases hwait : (s.loadOf b id row).waiting with
    | false =>
      exact ⟨_, _, _, beforeSettled_reached hs hqu, (qu.counted_started _).trans (Page.counted_settle _ _ false),
        passPage_of_settled hs hwait⟩
    | true =>
      cases hpolicy : (s.bar b).inEffect.policy with
      | halt => exact absurd ⟨hs, hwait, hpolicy⟩ hgo
      | blank =>
        exact ⟨_, _, _, beforeBlank_reached hs hqu, (qu.counted_started _).trans rfl, passPage_of_blank hs hwait hq hpolicy⟩

end Pass

/-! ### The whole of a pass -/

section Whole

variable {s : State} {b : BarId} {id row : Nat} {q : Page}

/-- Whether a page ends with a bar's pass of a row, in words (R34). -/
theorem endsWith_iff {p : Page} : p.endsWith b row = true ↔
    row + 1 = p.rowCount ∧ ∀ g n, (p.progress.set b (some (row + 1))).get g = some n → n = p.rowCount := by
  rw [Page.endsWith, Page.isLast, Bool.and_eq_true, decide_eq_true_eq, whole_iff]
  exact Iff.rfl

theorem fresh_waiting_iff : (s.freshLoad b id row).waiting = true ↔ ¬RowIsComplete s.ring.rows id row := by
  rw [← rowComplete_iff]
  simp [State.freshLoad]

/-- What a pass that takes place leaves of the bar. -/
structure BarPassed (s v : State) (b : BarId) (gap : Option Name) (last dark : Bool) : Prop where
  bar : v.bar b = { s.bar b with next := .idle, gapPlay := (v.bar b).gapPlay, darkReported := (v.bar b).darkReported }
  gapPlay : (v.bar b).gapPlay = if last then s.gapAfter b gap else (s.bar b).gapPlay
  reported : (v.bar b).darkReported = if last then false else dark || (s.bar b).darkReported

theorem RowPassed.barPassed {u w x : State} {p : Page} {last ends dark under : Bool}
    (h : RowPassed w x b id row p last ends) (hw : PassPrepared s u w b id dark under) :
    BarPassed s x b p.gap last dark := by
  have hgap (g : Option Name) : w.gapAfter b g = s.gapAfter b g := by
    cases g with
    | none =>
      rw [State.gapAfter, hw.bar]
      rfl
    | some n => exact (congrArg (fun y => (s.setLibrary y).gapAfter b (some n)) hw.library).trans rfl
  cases last with
  | false =>
    have hbar : x.bar b = w.bar b := h.bar
    rw [hw.bar] at hbar
    refine ⟨?_, ?_, ?_⟩ <;> rw [hbar] <;> rfl
  | true =>
    have hbar : x.bar b = { w.bar b with darkReported := false, gapPlay := w.gapAfter b p.gap } := h.bar
    rw [hw.bar, hgap] at hbar
    refine ⟨?_, ?_, ?_⟩ <;> rw [hbar] <;> rfl

theorem PassPrepared.barPassed {u w : State} {dark under : Bool} (hw : PassPrepared s u w b id dark under)
    (gap : Option Name) : BarPassed s w b gap false dark := by
  refine ⟨?_, ?_, ?_⟩ <;> rw [hw.bar] <;> rfl

end Whole

end Sys2Proof.Machine
end

section
/-! The pass of a page row at a bar, settled. -/

namespace Sys2Proof.Machine

section Report

variable {s v : State} {b : BarId} {id row : Nat} {q : Page}

/-! ### The bar, the reports and the record, as the pass states them -/

/-- The dark-reported flag and the play of a bar after a pass: a last row that is passed changes the current page. -/
theorem BarPassed.report {gap : Option Name} {L d : Bool} {halts last dark : Prop} (h : BarPassed s v b gap L d)
    (hL : L = true ↔ ¬halts ∧ last) (hd : d = true ↔ dark) :
    (dark → halts ∨ ¬last → (v.bar b).darkReported = true) ∧
    (¬dark → halts ∨ ¬last → (v.bar b).darkReported = (s.bar b).darkReported) ∧
    (¬halts → last → (v.bar b).darkReported = false) ∧
    (halts ∨ ¬last ∨ gap = none → (v.bar b).gapPlay = (s.bar b).gapPlay) ∧
    (¬halts → last → ∀ n e, gap = some n → s.pattern n = some e →
      (v.bar b).gapPlay = some { name := n, kind := e.kind, next := 0, source := .page }) := by
  have hstays (hc : halts ∨ ¬last) : L = false := Bool.eq_false_iff.2 fun hl => by
    obtain ⟨hgo, hlast⟩ := hL.1 hl
    exact hc.elim hgo fun hn => hn hlast
  rw [h.reported, h.gapPlay]
  refine ⟨fun hdark hc => ?_, fun hdark hc => ?_, fun hgo hlast => ?_, fun hc => ?_, fun hgo hlast n e hgap he => ?_⟩
  · rw [hstays hc, hd.2 hdark]
    rfl
  · rw [hstays hc, Bool.eq_false_iff.2 (mt hd.1 hdark)]
    rfl
  · rw [hL.2 ⟨hgo, hlast⟩]
    rfl
  · cases hl : L with
    | false => rfl
    | true =>
      obtain ⟨hgo, hlast⟩ := hL.1 hl
      obtain rfl : gap = none := (hc.resolve_left hgo).resolve_left fun hn => hn hlast
      rfl
  · rw [hL.2 ⟨hgo, hlast⟩, hgap]
    exact gapAfter_of_some (b := b) he

/-- BARDARK is raised at a dark pass that no dark report stands for (R89). -/
theorem PassPrepared.service_report {u w : State} {d under : Bool} {dark : Prop} (h : PassPrepared s u w b id d under)
    (hd : d = true ↔ dark) :
    (dark ∧ (s.bar b).darkReported = false →
      (w.link .service).flags = (s.link .service).flags ||| 0x0040) ∧
    (¬(dark ∧ (s.bar b).darkReported = false) → w.link .service = s.link .service) := by
  have hraise : (d && !(s.bar b).darkReported) = true ↔ dark ∧ (s.bar b).darkReported = false := by
    rw [Bool.and_eq_true, Bool.not_eq_true', hd]
  rw [h.service]
  refine ⟨fun hc => ?_, fun hc => if_neg (mt hraise.1 hc)⟩
  rw [if_pos (hraise.2 hc)]

theorem Page.Moved.withMisses {q q' qu : Page} (h : q.Moved q') (hlate : q'.missedLate = qu.missedLate)
    (hover : q'.missedOverspeed = qu.missedOverspeed) :
    q' = { q with
      state := q'.state, cause := q'.cause, progress := q'.progress, missedUnderrun := q'.missedUnderrun
      missedLate := qu.missedLate, missedOverspeed := qu.missedOverspeed, suppressed := q'.suppressed
      lost := q'.lost, substituted := q'.substituted, degraded := q'.degraded } := by
  rw [← hlate, ← hover]
  exact h

/-- What a pass counts keeps the rest of the page's record. -/
theorem Page.Counted.kept {p p' : Page} (h : p.Counted p') : p'.state = p.state ∧ p'.cause = p.cause ∧
    p'.progress = p.progress ∧ p'.gap = p.gap ∧ p'.rowCount = p.rowCount ∧ p'.missedLate = p.missedLate ∧
    p'.missedOverspeed = p.missedOverspeed := by
  refine ⟨?_, ?_, ?_, ?_, ?_, ?_, ?_⟩ <;> rw [h]

theorem Page.moved_abort (p : Page) (c : AbortCause) : p.Moved (p.abort c) := rfl

theorem Page.moved_passedBy (p : Page) (b : BarId) (row : Nat) (st : PageState) :
    p.Moved { p.passedBy b row with state := st } := rfl

theorem Page.Missed.kept {p p' : Page} (h : p.Missed p') : p'.state = p.state ∧ p'.cause = p.cause ∧
    p'.progress = p.progress ∧ p'.gap = p.gap ∧ p'.rowCount = p.rowCount := by
  refine ⟨?_, ?_, ?_, ?_, ?_⟩ <;> rw [h]

end Report

/-- The counters that settling tallies leaves. -/
theorem settle_counters (p : Page) (pl : PageLoad) (suppressed : Bool) :
    (p.settle pl suppressed).missedUnderrun = p.missedUnderrun ∧ (p.settle pl suppressed).suppressed = p.suppressed := by
  unfold Page.settle
  split
  · split <;> exact ⟨rfl, rfl⟩
  · split <;> exact ⟨rfl, rfl⟩

theorem settle_true_degraded (p : Page) (pl : PageLoad) : (p.settle pl true).degraded = p.degraded := by
  unfold Page.settle
  cases pl.added <;> rfl

/-- What starting a pass leaves of the page's tallies and counters. -/
theorem started_counters (p : Page) (dark : Bool) : (p.started dark).lost = p.lost ∧
    (p.started dark).substituted = p.substituted ∧ (p.started dark).missedUnderrun = p.missedUnderrun ∧
    (p.started dark).suppressed = p.suppressed := by
  cases dark <;> exact ⟨rfl, rfl, rfl, rfl⟩

/-! ### The counters of a pass, by the way it is reached -/

section Counters

variable {s : State} {b : BarId} {id row : Nat} {q : Page}

theorem passPage_suppressed_counters (hq : s.page id = some q) (hprinting : q.state = .printing)
    (hs : s.queue.suppress = true) :
    let pl := s.loadOf b id row
    let back := fun (n tally : Nat) => if pl.added = true ∧ n ≠ 4294967295 then n - tally else n
    ∃ q', (s.passPage b id row).page id = some q' ∧ q'.progress = q.progress.set b (some (row + 1)) ∧
      q'.lost = back q.lost pl.lost ∧ q'.substituted = back q.substituted pl.substituted ∧
      q'.suppressed = min 65535 (q.suppressed + 1) ∧ q'.missedUnderrun = q.missedUnderrun ∧
      q'.missedLate = q.missedLate ∧ q'.missedOverspeed = q.missedOverspeed ∧ q'.degraded = q.degraded ∧
      ((s.passPage b id row).link .image).flags &&& 0x0004 = (s.link .image).flags &&& 0x0004 := by
  have hqu : (s.pageHeads b id row).page id = some q := (pageHeads_page_of_quiet (Or.inl hs)).trans hq
  obtain ⟨hprep, hpage⟩ := beforeSuppressed_reached hs hqu
  obtain ⟨hstate, _, hprogress, _, _, hlate, hover⟩ := (q.counted_settle (s.loadOf b id row) true).kept
  obtain ⟨hunder, hsuppressed⟩ := settle_counters q (s.loadOf b id row) true
  obtain ⟨hlost, hsub⟩ := q.settle_true_tallies (s.loadOf b id row)
  have hx := completePass_passed (b := b) (row := row) hpage (hstate.trans hprinting)
  rw [passPage_of_suppressed hs]
  exact ⟨_, hx.page, congrArg (PerBar.set · b (some (row + 1))) hprogress, hlost, hsub,
    congrArg (fun n => min 65535 (n + 1)) hsuppressed, hunder, hlate, hover, settle_true_degraded q _,
    hx.flags.2.1.trans hprep.image_flags.2⟩

theorem passPage_blank_counters (hq : s.page id = some q) (hprinting : q.state = .printing)
    (hs : s.queue.suppress = false) (hwait : (s.loadOf b id row).waiting = true)
    (hpolicy : (s.bar b).inEffect.policy = .blank) :
    ∃ q', (s.passPage b id row).page id = some q' ∧ q'.progress = q.progress.set b (some (row + 1)) ∧
      q'.lost = q.lost ∧ q'.substituted = q.substituted ∧ q'.missedUnderrun = min 65535 (q.missedUnderrun + 1) ∧
      q'.missedLate = q.missedLate ∧ q'.missedOverspeed = q.missedOverspeed ∧ q'.suppressed = q.suppressed ∧
      q'.degraded = true ∧ ((s.passPage b id row).link .image).flags &&& 0x0004 = 0x0004 := by
  have hqu : (s.pageHeads b id row).page id = some q := (pageHeads_page_of_quiet (Or.inr hwait)).trans hq
  obtain ⟨hprep, hpage⟩ := beforeBlank_reached hs hqu
  obtain ⟨hstate, _, hprogress, _, _, hlate, hover⟩ := (q.counted_started (s.darkAt b)).kept
  obtain ⟨hlost, hsub, hunder, hsuppressed⟩ := started_counters q (s.darkAt b)
  have hx := completePass_passed (b := b) (row := row) hpage (hstate.trans hprinting)
  rw [passPage_of_blank hs hwait hq hpolicy]
  exact ⟨_, hx.page, congrArg (PerBar.set · b (some (row + 1))) hprogress, hlost, hsub,
    congrArg (fun n => min 65535 (n + 1)) hunder, hlate, hover, hsuppressed, rfl,
    hx.flags.2.1.trans hprep.image_flags.2⟩

theorem passPage_halt_counters (hq : s.page id = some q) (hs : s.queue.suppress = false)
    (hwait : (s.loadOf b id row).waiting = true) (hpolicy : (s.bar b).inEffect.policy = .halt) :
    ∃ q', (s.passPage b id row).page id = some q' ∧ q'.progress = q.progress ∧ q'.state = .aborted ∧
      q'.lost = q.lost ∧ q'.substituted = q.substituted ∧ q'.cause = some .underrunHalt ∧
      q'.missedUnderrun = q.missedUnderrun ∧ q'.suppressed = q.suppressed ∧
      ((s.passPage b id row).link .image).flags &&& 0x0004 = 0x0004 ∧
      ((s.passPage b id row).link .image).flags &&& 0x0002 = 0x0002 := by
  have hqu : (s.pageHeads b id row).page id = some q := (pageHeads_page_of_quiet (Or.inr hwait)).trans hq
  obtain ⟨hprep, hpage⟩ := underrunAt_reached hs hqu
  obtain ⟨_, _, hprogress, _⟩ := (q.counted_started (s.darkAt b)).kept
  obtain ⟨hlost, hsub, hunder, hsuppressed⟩ := started_counters q (s.darkAt b)
  obtain ⟨himage, _⟩ := abortPage_link (s.underrunAt b id row) id .underrunHalt
  rw [passPage_of_halt hs hwait hq hpolicy, himage]
  exact ⟨_, abortPage_page .underrunHalt hpage, hprogress, rfl, hlost, hsub, rfl, hunder, hsuppressed,
    (raised_and_of_disjoint _ (by decide)).trans hprep.image_flags.2, raised_and_self ..⟩

theorem passPage_settled_counters (hq : s.page id = some q) (hprinting : q.state = .printing)
    (hs : s.queue.suppress = false) (hwait : (s.loadOf b id row).waiting = false) :
    let pl := s.loadOf b id row
    let settled := fun (n tally : Nat) => if pl.added = true then n else min 4294967295 (n + tally)
    ∃ q', (s.passPage b id row).page id = some q' ∧ q'.progress = q.progress.set b (some (row + 1)) ∧
      q'.missedUnderrun = q.missedUnderrun ∧ q'.suppressed = q.suppressed ∧
      ((s.passPage b id row).link .image).flags &&& 0x0004 = (s.link .image).flags &&& 0x0004 ∧
      q'.lost = settled q.lost pl.lost ∧ q'.substituted = settled q.substituted pl.substituted ∧
      ((s.activeLanes b).isEmpty = true → q'.degraded = true) ∧
      (pl.added = false → 1 ≤ pl.lost → q'.degraded = true) := by
  obtain ⟨qu, hqu, hmissed⟩ := (pageHeads_miss s b id row).page q hq
  have hcounters : qu.state = q.state ∧ qu.progress = q.progress ∧ qu.missedUnderrun = q.missedUnderrun ∧
      qu.suppressed = q.suppressed ∧ qu.lost = q.lost ∧ qu.substituted = q.substituted := by
    refine ⟨?_, ?_, ?_, ?_, ?_, ?_⟩ <;> rw [hmissed]
  obtain ⟨hqstate, hqprogress, hqunder, hqsuppressed, hqlost, hqsub⟩ := hcounters
  obtain ⟨hprep, hpage⟩ := beforeSettled_reached hs hqu
  obtain ⟨hstate, _, hprogress, _⟩ :=
    ((qu.counted_started (s.darkAt b)).trans (Page.counted_settle _ (s.loadOf b id row) false)).kept
  obtain ⟨hslost, hssub, hsunder, hssuppressed⟩ := started_counters qu (s.darkAt b)
  obtain ⟨hunder, hsuppressed⟩ := settle_counters (qu.started (s.darkAt b)) (s.loadOf b id row) false
  obtain ⟨hlost, hsub⟩ := (qu.started (s.darkAt b)).settle_false_tallies hwait
  have hdegraded := (qu.started (s.darkAt b)).settle_false_degraded hwait
  have hx := completePass_passed (b := b) (row := row) hpage (hstate.trans (hqstate.trans hprinting))
  rw [hslost, hqlost] at hlost
  rw [hssub, hqsub] at hsub
  rw [passPage_of_settled hs hwait]
  refine ⟨_, hx.page, congrArg (PerBar.set · b (some (row + 1))) (hprogress.trans hqprogress),
    hunder.trans (hsunder.trans hqunder), hsuppressed.trans (hssuppressed.trans hqsuppressed),
    hx.flags.2.1.trans hprep.image_flags.2, hlost, hsub, fun hdark => hdegraded.2 (Or.inl ?_),
    fun hadded hone => hdegraded.2 (Or.inr ⟨hadded, hone⟩)⟩
  have hd : s.darkAt b = true := by
    rw [State.darkAt, hs, hdark]
    rfl
  rw [hd]
  rfl

end Counters

/-! ### The obligation -/

/-- Settles O58: the heads act, the load's tallies are settled, and the row is passed or its page halted. -/
theorem passesMoveThePage : Obligations.PassesMoveThePage := by
  refine ⟨fun s b id row => ⟨fun pl hpl hp hr => hp ▸ hr ▸ loadOf_of_held hpl,
    fun h => ⟨_, fresh_waiting_iff (b := b), loadOf_of_not_held h⟩⟩, fun s b id row q hq hprinting _ => ?_,
    fun s b id row q hq hprinting _ => ⟨?_, ?_, ?_, ?_⟩⟩
  · obtain ⟨qu, hqu, hmissed⟩ := (pageHeads_miss s b id row).page q hq
    obtain ⟨hmstate, hmcause, hmprogress, hmgap, hmrows⟩ := hmissed.kept
    have hmotion8 := (pageHeads_miss s b id row).done
    intro t pl passed halts dark last ends
    have hd : s.darkAt b = true ↔ dark := darkAt_iff
    by_cases hhalt : halts
    · obtain ⟨hs, hwait, hpolicy⟩ := hhalt
      obtain ⟨hprep, hpage⟩ := underrunAt_reached hs hqu
      have ht : t = (s.underrunAt b id row).abortPage id .underrunHalt := passPage_of_halt hs hwait hq hpolicy
      have hcounted := qu.counted_started (s.darkAt b)
      obtain ⟨hcstate, hccause, hcprogress, hcgap, hcrows, hclate, hcover⟩ := hcounted.kept
      have hbar := hprep.barPassed q.gap
      obtain ⟨hreport, hkept, hclear, hgap, hplay⟩ := hbar.report (halts := halts) (last := last)
        (iff_of_false (by simp) fun h => h.1 ⟨hs, hwait, hpolicy⟩) hd
      obtain ⟨hservice, hquiet⟩ := hprep.service_report hd
      obtain ⟨himage, hmotion, _⟩ := abortPage_link (s.underrunAt b id row) id .underrunHalt
      refine ⟨s.pageHeads b id row, s.underrunAt b id row, _, qu, pageHeads_act s b id row, hprep.lanes, hprep.sent,
        hprep.position, hprep.lists, hprep.library, hprep.pages, hprep.bars, hbar.bar, hservice, hquiet, hreport, hkept,
        hclear, hgap, hplay, fun _ => ⟨hprep.ring, ht⟩, fun h => absurd ⟨hs, hwait, hpolicy⟩ h,
        ht ▸ abortPage_page .underrunHalt hpage, hqu, ?_, fun h => absurd ⟨hs, hwait, hpolicy⟩ h, ?_, ?_, ?_⟩
      · exact (hmissed.moved.trans (hcounted.moved.trans (Page.moved_abort ..))).withMisses hclate hcover
      · rw [ht, himage, if_neg (by simp [Page.abort])]
        exact (raised_and_of_disjoint _ (by decide)).trans hprep.image_flags.1
      · rw [ht, hmotion, hprep.motion, if_neg (by simp [Page.abort])]
        exact (raised_and_of_disjoint _ (by decide)).trans hmotion8
      · rw [ht, hmotion, hprep.motion]
        exact raised_and_of_disjoint _ (by decide)
    · obtain ⟨w, p, under, ⟨hprep, hpage⟩, hcounted, ht⟩ := passPage_reached hq hqu hhalt
      obtain ⟨hcstate, hccause, hcprogress, hcgap, hcrows, hclate, hcover⟩ := hcounted.kept
      have hstate : p.state = .printing := hcstate.trans (hmstate.trans hprinting)
      have hrows : p.rowCount = q.rowCount := hcrows.trans hmrows
      have hprogress : p.progress = q.progress := hcprogress.trans hmprogress
      have hgapEq : p.gap = q.gap := hcgap.trans hmgap
      have hx : RowPassed w t b id row p (p.isLast row) (p.endsWith b row) := by
        refine Eq.subst (motive := fun x => RowPassed w x b id row p _ _) ht.symm ?_
        exact completePass_passed hpage hstate
      have hlast : p.isLast row = true ↔ ¬halts ∧ last := by
        rw [Page.isLast, decide_eq_true_eq, hrows]
        exact (and_iff_right hhalt).symm
      have hends : p.endsWith b row = true ↔ ends := by
        rw [endsWith_iff, hrows, hprogress]
      have hbar := hx.barPassed hprep
      obtain ⟨hreport, hkept, hclear, hgap, hplay⟩ := hbar.report hlast hd
      rw [hgapEq] at hgap hplay
      obtain ⟨hservice, hquiet⟩ := hprep.service_report hd
      obtain ⟨himage, _, hmotion, hspeed⟩ := hx.flags
      rw [hprep.motion] at hmotion hspeed
      refine ⟨s.pageHeads b id row, t, _, qu, pageHeads_act s b id row, hx.lanes.trans hprep.lanes,
        hx.sent.trans hprep.sent, hx.position.trans hprep.position, hx.lists.trans hprep.lists,
        hx.library.trans hprep.library, fun j hj => (hx.pages j hj).trans (hprep.pages j hj),
        fun c hc => (hx.bars c hc).trans (hprep.bars c hc), hbar.bar, hx.service ▸ hservice, hx.service ▸ hquiet,
        hreport, hkept, hclear, hgap, hplay, fun h => absurd h hhalt, fun _ => ⟨rfl, hprep.ring ▸ hx.ring⟩,
        hx.page, hqu, ?_, fun _ => ⟨hccause.trans hmcause, fun h => if_pos (hends.2 h), fun h => ?_⟩, ?_, ?_, hspeed⟩
      · exact (hmissed.moved.trans (hcounted.moved.trans (Page.moved_passedBy ..))).withMisses hclate hcover
      · exact (if_neg (mt hends.1 h)).trans hstate
      · rw [himage, hprep.image_flags.1]
        cases p.endsWith b row <;> simp [hstate]
      · rw [hmotion, hmotion8]
        cases p.endsWith b row <;> simp [hstate]
  · exact passPage_suppressed_counters hq hprinting
  · exact passPage_blank_counters hq hprinting
  · exact passPage_halt_counters hq
  · exact passPage_settled_counters hq hprinting

end Sys2Proof.Machine
end
